-- ==== Sys2Proof/Word.lean ====
section
/-! DEFINITION. The words of the block: the 32-bit register word (R22), the byte (R64), the carrier of the numeric
structure `NUM` (R9) and the result of storing an exact integer into a field of a stated width (R8). -/

namespace Sys2Proof

/-- A byte, used only where a register word is carried over a byte-wide bus (R64). -/
abbrev Byte := BitVec 8

/-- A 32-bit register word (R22, R62). -/
abbrev Word := BitVec 32

/-- The carrier `Num` of the numeric structure of R9, whatever the structure: a value by its number in a numbering of
the carrier (of binary32, by its encoding) in which the constant `0` has the number 0 (log entry 24). It is a type of
its own, so that a number and a register word are never confused: they meet only in the codec of the structure. (It is
named `NumValue` because Mathlib has a type `Num`.) -/
structure NumValue where
  code : Nat
deriving DecidableEq, Repr, Inhabited

/-- The constant `0` of R9. -/
def NumValue.zero : NumValue := ⟨0⟩

/-- An IEEE 754 binary32 value by its encoding. -/
structure Num32 where
  bits : Word
deriving DecidableEq, Repr

/-- What `store_N` of R8 delivers: the value the field receives, and whether the exact value lay outside the
field's range (then `FAULT.OVF` is to be set). -/
structure Stored (α : Type) where
  val : α
  ovf : Bool
deriving DecidableEq, Repr

end Sys2Proof
end

