-- ==== Sys2Proof/Config.lean ====
section
/-! DEFINITION. What an implementation of the block fixes: the parameters of R6 (the numeric structure `NUM` of R9 among
them) and `HOST_BASE` of R60, their defaults and legal ranges, and what the spec leaves free. -/

namespace Sys2Proof

/-- A numeric structure `NUM`: what R9 says it supplies over the carrier `Num`, beside the constant `0`. -/
structure NumStructure where
  /-- The constant `1`. -/
  one : NumValue
  /-- The constant `360`. -/
  threeSixty : NumValue
  /-- `ofInt(z)`: integer to `Num`. -/
  ofInt : Int → NumValue
  /-- `a + b`. -/
  add : NumValue → NumValue → NumValue
  /-- `a - b`. -/
  sub : NumValue → NumValue → NumValue
  /-- `a * b`. -/
  mul : NumValue → NumValue → NumValue
  /-- `a / b`. -/
  div : NumValue → NumValue → NumValue
  /-- `-a`. -/
  neg : NumValue → NumValue
  /-- `|a|`. -/
  abs : NumValue → NumValue
  /-- `sqrt(a)`. -/
  sqrt : NumValue → NumValue
  /-- `a < b`. -/
  lt : NumValue → NumValue → Bool
  /-- `a <= b`. -/
  le : NumValue → NumValue → Bool
  /-- `eq`. -/
  eq : NumValue → NumValue → Bool
  /-- `num_enc`. -/
  enc : NumValue → Word
  /-- `num_dec`, `none` being INVALID. -/
  dec : Word → Option NumValue
deriving Inhabited

/-- Which numeric structure an implementation has (R6): the default, or any other. -/
inductive NumChoice where
  /-- IEEE 754 binary32, round to nearest even, the default of R6. -/
  | binary32
  /-- The structure `Config.numStructure id`, about which nothing is assumed (log entry 6). -/
  | other (id : Nat)
deriving DecidableEq, Repr

/-- The implementation parameters of R6 and R60. They stand in `State` as a record that no operation writes, so
that a statement over every state is a statement over every implementation (log entry 5). -/
structure Params where
  /-- `HOST_BASE`, the base address of the host port window; left OPEN by the spec (R60, log entry 13). -/
  hostBase : Nat
  /-- `N_PHASE_MAX`, number of phase slots. -/
  nPhaseMax : Nat
  /-- `SAMPLE_W`, width of a raw ADC sample, two's complement. -/
  sampleW : Nat
  /-- `ACC_W`, width of the product accumulators, two's complement. -/
  accW : Nat
  /-- `CNT_W`, width of the accumulator sample count, unsigned. -/
  cntW : Nat
  /-- `CYC_W`, width of the zero-cross cycle counter, unsigned. -/
  cycW : Nat
  /-- `LIFE_W`, width of each lifetime pulse counter, unsigned. -/
  lifeW : Nat
  /-- `APP_EXP_LED_QUIRK`: the apparent-export rollover retriggers the active LED (R185). -/
  appExpLedQuirk : Bool
  /-- `NUM`, the numeric structure of R9 that every `Num` operation computes with. -/
  num : NumChoice
deriving DecidableEq, Repr

/-- The default column of R6. `hostBase` has no default in the spec: 0 is the model's (log entry 13). -/
def Params.default : Params where
  hostBase := 0
  nPhaseMax := 4
  sampleW := 24
  accW := 64
  cntW := 32
  cycW := 16
  lifeW := 32
  appExpLedQuirk := false
  num := .binary32

/-- The legal ranges of R6. Every choice of `NUM` is legal, and so is either value of `APP_EXP_LED_QUIRK`. -/
def Params.legal (p : Params) : Bool :=
  decide (1 ≤ p.nPhaseMax) && decide (p.nPhaseMax ≤ 255) &&
  decide (2 ≤ p.sampleW) && decide (p.sampleW ≤ 32) &&
  decide (2 * p.sampleW + 1 ≤ p.accW) &&
  decide (16 ≤ p.cntW) && decide (p.cntW ≤ 64) &&
  decide (p.cycW = 16) && decide (p.lifeW = 32)

/-- FREE VALUE. The numeric structures other than the default. R6 and R9 admit any, so nothing constrains them: a
statement over every `NumChoice` is a statement over every numeric structure (log entry 6). -/
opaque Config.numStructure : Nat → NumStructure

/-- FREE VALUE. The word that stands in a response register for a `Num` that is not a number. The spec gives
`num_enc` no value there (the binary32 structure has many NaN patterns), so nothing constrains it (log entry 8). -/
opaque Config.nanWord : Word

end Sys2Proof
end

