-- ==== Sys2Proof/Syntax.lean ====
section
/-! DEFINITION. The operations of the block: one constructor for each of the 38 rows of the opcode map (R84). -/

namespace Sys2Proof

/-- The operations of R84. `k` is the `PH` field (the phase slot, R81), `lc` the `IMM` field (`line_cycles`). -/
inductive Instr where
  -- micro-operations, 0x01 to 0x0C
  | zcdDetect (k : Nat)
  | accReset (k : Nat)
  | accAccumulate (k : Nat)
  | accLoad (k : Nat)
  | phaseSample (k : Nat)
  | hardReset (k : Nat)
  | measurePhase (k : Nat)
  | angleEnter (k : Nat)
  | angleSample (k : Nat)
  | ledDecay
  | energyRoute
  | seqStep
  -- events, 0x10 to 0x12
  | evAdc
  | evTmr
  | evRtc
  -- host commands, 0x20 to 0x36
  | init
  | deinit
  | start
  | stop
  | phaseRegister
  | phaseLoadCal (k : Nat)
  | phaseCalibrate (k lc : Nat)
  | globalCalibrate
  | energySet
  | energyGet
  | statusGet (k : Nat)
  | vrmsGet (k : Nat)
  | irmsGet (k : Nat)
  | flineGet (k : Nat)
  | pGet (k : Nat)
  | qGet (k : Nat)
  | sGet (k : Nat)
  | measGet (k : Nat)
  | consGet
  | measReady (k : Nat)
  | phaseCalGet (k : Nat)
  | seqStatus
  | statGet
deriving DecidableEq, Repr

/-- The opcode classes of R83. -/
inductive OpClass where
  | micro
  | event
  | host
deriving DecidableEq, Repr

/-- The class of an operation (R83, R84). -/
def Instr.opClass : Instr → OpClass
  | .zcdDetect _ | .accReset _ | .accAccumulate _ | .accLoad _ | .phaseSample _ | .hardReset _
  | .measurePhase _ | .angleEnter _ | .angleSample _ | .ledDecay | .energyRoute | .seqStep => .micro
  | .evAdc | .evTmr | .evRtc => .event
  | .init | .deinit | .start | .stop | .phaseRegister | .phaseLoadCal _ | .phaseCalibrate _ _
  | .globalCalibrate | .energySet | .energyGet | .statusGet _ | .vrmsGet _ | .irmsGet _ | .flineGet _
  | .pGet _ | .qGet _ | .sGet _ | .measGet _ | .consGet | .measReady _ | .phaseCalGet _ | .seqStatus
  | .statGet => .host

/-- The opcode `OP` of R84. -/
def Instr.opcode : Instr → Nat
  | .zcdDetect _ => 0x01
  | .accReset _ => 0x02
  | .accAccumulate _ => 0x03
  | .accLoad _ => 0x04
  | .phaseSample _ => 0x05
  | .hardReset _ => 0x06
  | .measurePhase _ => 0x07
  | .angleEnter _ => 0x08
  | .angleSample _ => 0x09
  | .ledDecay => 0x0A
  | .energyRoute => 0x0B
  | .seqStep => 0x0C
  | .evAdc => 0x10
  | .evTmr => 0x11
  | .evRtc => 0x12
  | .init => 0x20
  | .deinit => 0x21
  | .start => 0x22
  | .stop => 0x23
  | .phaseRegister => 0x24
  | .phaseLoadCal _ => 0x25
  | .phaseCalibrate _ _ => 0x26
  | .globalCalibrate => 0x27
  | .energySet => 0x28
  | .energyGet => 0x29
  | .statusGet _ => 0x2A
  | .vrmsGet _ => 0x2B
  | .irmsGet _ => 0x2C
  | .flineGet _ => 0x2D
  | .pGet _ => 0x2E
  | .qGet _ => 0x2F
  | .sGet _ => 0x30
  | .measGet _ => 0x31
  | .consGet => 0x32
  | .measReady _ => 0x33
  | .phaseCalGet _ => 0x34
  | .seqStatus => 0x35
  | .statGet => 0x36

/-- The `PH` field an operation carries: its phase slot, or 0 where R84's column says 0. -/
def Instr.phase : Instr → Nat
  | .zcdDetect k | .accReset k | .accAccumulate k | .accLoad k | .phaseSample k | .hardReset k
  | .measurePhase k | .angleEnter k | .angleSample k | .phaseLoadCal k | .phaseCalibrate k _
  | .statusGet k | .vrmsGet k | .irmsGet k | .flineGet k | .pGet k | .qGet k | .sGet k | .measGet k
  | .measReady k | .phaseCalGet k => k
  | .ledDecay | .energyRoute | .seqStep | .evAdc | .evTmr | .evRtc | .init | .deinit | .start | .stop
  | .phaseRegister | .globalCalibrate | .energySet | .energyGet | .consGet | .seqStatus | .statGet => 0

/-- The `IMM` field an operation carries: `line_cycles` of PHASE_CALIBRATE, 0 in every other row of R84. -/
def Instr.imm : Instr → Nat
  | .phaseCalibrate _ lc => lc
  | .zcdDetect _ | .accReset _ | .accAccumulate _ | .accLoad _ | .phaseSample _ | .hardReset _
  | .measurePhase _ | .angleEnter _ | .angleSample _ | .ledDecay | .energyRoute | .seqStep | .evAdc
  | .evTmr | .evRtc | .init | .deinit | .start | .stop | .phaseRegister | .phaseLoadCal _
  | .globalCalibrate | .energySet | .energyGet | .statusGet _ | .vrmsGet _ | .irmsGet _ | .flineGet _
  | .pGet _ | .qGet _ | .sGet _ | .measGet _ | .consGet | .measReady _ | .phaseCalGet _ | .seqStatus
  | .statGet => 0

end Sys2Proof
end

