-- ==== Sys2Proof/WellFormed.lean ====
section
/-! DEFINITION. Which operations the format of R80 can carry: the phase slot in 8 bits, the immediate in 16. -/

namespace Sys2Proof

/-- The `PH` field is 8 bits wide (R80, R81). -/
def phaseFits (k : Nat) : Bool := decide (k < 2 ^ 8)

/-- The `IMM` field is 16 bits wide (R80, R81). -/
def immFits (v : Nat) : Bool := decide (v < 2 ^ 16)

/-- An operation is well formed when each of its operands fits its field of R80. -/
def Instr.wellFormed (i : Instr) : Bool := phaseFits i.phase && immFits i.imm

end Sys2Proof
end

