-- ==== Sys2Proof/Decode.lean ====
section
/-! DEFINITION. Decoding of operation words (R80 to R86), total on any word and on any bytes, and the encoder. -/

namespace Sys2Proof

/-- Why a word is no operation. -/
inductive DecodeError where
  /-- `OP` is reserved (R83): the host sees `ERR_OPCODE`. -/
  | illegalOpcode
  /-- A `PH` or `IMM` field the operation does not use is nonzero (R85 step 2): the host sees `ERR_RESERVED`. -/
  | reservedField
  /-- Not exactly four bytes (R80: every operation word is exactly 32 bits). -/
  | wrongLength
deriving DecidableEq, Repr

/-- `OPW[31:24]` (R80). -/
def opField (w : Word) : Nat := (w.extractLsb' 24 8).toNat

/-- `zext_8(OPW[23:16])` (R80, R81). -/
def phField (w : Word) : Nat := (w.extractLsb' 16 8).toNat

/-- `zext_16(OPW[15:0])`, never sign-extended or scaled (R80, R81). -/
def immField (w : Word) : Nat := (w.extractLsb' 0 16).toNat

/-- A row of R84 whose columns PH and IMM are both 0. -/
def bareForm (w : Word) (i : Instr) : Except DecodeError Instr :=
  if phField w = 0 ∧ immField w = 0 then .ok i else .error .reservedField

/-- A row of R84 whose column PH is `k` and whose column IMM is 0. -/
def phaseForm (w : Word) (f : Nat → Instr) : Except DecodeError Instr :=
  if immField w = 0 then .ok (f (phField w)) else .error .reservedField

/-- The decoder of R84 and R85: the opcode first, then the reserved fields. -/
def decode (w : Word) : Except DecodeError Instr :=
  match opField w with
  | 0x01 => phaseForm w .zcdDetect
  | 0x02 => phaseForm w .accReset
  | 0x03 => phaseForm w .accAccumulate
  | 0x04 => phaseForm w .accLoad
  | 0x05 => phaseForm w .phaseSample
  | 0x06 => phaseForm w .hardReset
  | 0x07 => phaseForm w .measurePhase
  | 0x08 => phaseForm w .angleEnter
  | 0x09 => phaseForm w .angleSample
  | 0x0A => bareForm w .ledDecay
  | 0x0B => bareForm w .energyRoute
  | 0x0C => bareForm w .seqStep
  | 0x10 => bareForm w .evAdc
  | 0x11 => bareForm w .evTmr
  | 0x12 => bareForm w .evRtc
  | 0x20 => bareForm w .init
  | 0x21 => bareForm w .deinit
  | 0x22 => bareForm w .start
  | 0x23 => bareForm w .stop
  | 0x24 => bareForm w .phaseRegister
  | 0x25 => phaseForm w .phaseLoadCal
  | 0x26 => .ok (.phaseCalibrate (phField w) (immField w))
  | 0x27 => bareForm w .globalCalibrate
  | 0x28 => bareForm w .energySet
  | 0x29 => bareForm w .energyGet
  | 0x2A => phaseForm w .statusGet
  | 0x2B => phaseForm w .vrmsGet
  | 0x2C => phaseForm w .irmsGet
  | 0x2D => phaseForm w .flineGet
  | 0x2E => phaseForm w .pGet
  | 0x2F => phaseForm w .qGet
  | 0x30 => phaseForm w .sGet
  | 0x31 => phaseForm w .measGet
  | 0x32 => bareForm w .consGet
  | 0x33 => phaseForm w .measReady
  | 0x34 => phaseForm w .phaseCalGet
  | 0x35 => bareForm w .seqStatus
  | 0x36 => bareForm w .statGet
  | _ => .error .illegalOpcode

/-- The 32-bit word of four bytes, little-endian: the byte at the lowest address holds bits 7..0 (R64). -/
def wordOfBytes (b0 b1 b2 b3 : Byte) : Word := b3 ++ b2 ++ b1 ++ b0

/-- The four bytes of a word, lowest address first (R64). -/
def bytesOfWord (w : Word) : List Byte :=
  [w.extractLsb' 0 8, w.extractLsb' 8 8, w.extractLsb' 16 8, w.extractLsb' 24 8]

/-- Decoding of an operation word stored as bytes: total on any list of bytes (R64, R80). -/
def decodeBytes : List Byte → Except DecodeError Instr
  | [b0, b1, b2, b3] => decode (wordOfBytes b0 b1 b2 b3)
  | _ => .error .wrongLength

/-- The operation word of an instruction: `OP` in bits 31..24, `PH` in bits 23..16, `IMM` in bits 15..0, unused
fields 0 (R80, R84). -/
def encode (i : Instr) : Word :=
  BitVec.ofNat 8 i.opcode ++ BitVec.ofNat 8 i.phase ++ BitVec.ofNat 16 i.imm

/-- The opcodes of R83's host class: what R85 step 1 admits. -/
def isHostOpcode (op : Nat) : Bool := decide (0x20 ≤ op) && decide (op ≤ 0x36)

/-- The host's question to the decoder: the instruction of the word `w` of `nbits` bits, laid out as R64 stores it. -/
def decodeTableWord (nbits w : Nat) : Option Instr :=
  (decodeBytes (bytesOfWord (BitVec.ofNat 32 (w % 2 ^ nbits)))).toOption

end Sys2Proof
end

