-- ==== Sys2Proof/Machine/Num32.lean ====
section
/-! DEFINITION. The numeric structure `NUM` of R9: the default of R6, IEEE 754 binary32, round to nearest, ties to
even, one rounding per operation, written out, and the structure that a choice of `NUM` stands for. The rules use only
the interface `NumStructure`; the arithmetic inside binary32 is the standard's (PRESUMED, log entry 7). Every finite
binary32 value is a whole multiple of 2^-149, so each operation is computed exactly on integers and rounded once by
`roundRatio`. -/

namespace Sys2Proof

/-- The exponent field of a binary32 encoding. -/
def Num32.expField (x : Num32) : Nat := (x.bits.extractLsb' 23 8).toNat

/-- The fraction field of a binary32 encoding. -/
def Num32.fracField (x : Num32) : Nat := (x.bits.extractLsb' 0 23).toNat

/-- The sign bit. -/
def Num32.isNeg (x : Num32) : Bool := x.bits.msb

/-- Neither a NaN nor an infinity. -/
def Num32.isFinite (x : Num32) : Bool := x.expField != 255

/-- The exponent field all ones and the fraction not 0. -/
def Num32.isNaN (x : Num32) : Bool := x.expField == 255 && x.fracField != 0

/-- The exponent field all ones and the fraction 0. -/
def Num32.isInf (x : Num32) : Bool := x.expField == 255 && x.fracField == 0

/-- The magnitude of a finite value as a multiple of 2^-149, subnormals included. -/
def Num32.scaledMag (x : Num32) : Nat :=
  if x.expField = 0 then x.fracField else (2 ^ 23 + x.fracField) <<< (x.expField - 1)

/-- A finite value as a signed multiple of 2^-149. -/
def Num32.scaled (x : Num32) : Int := if x.isNeg then -(x.scaledMag : Int) else (x.scaledMag : Int)

/-- Both zeros. -/
def Num32.isZero (x : Num32) : Bool := x.isFinite && x.scaledMag == 0

/-- The encoding with the given sign and magnitude bits. -/
def Num32.pack (neg : Bool) (mag : Nat) : Num32 := ⟨BitVec.ofNat 32 (mag + if neg then 2 ^ 31 else 0)⟩

/-- A zero of the given sign. -/
def Num32.signedZero (neg : Bool) : Num32 := Num32.pack neg 0

/-- An infinity of the given sign. -/
def Num32.infinity (neg : Bool) : Num32 := Num32.pack neg (255 * 2 ^ 23)

/-- The one NaN the model's arithmetic delivers. No rule reads its bits: `Num32.enc` gives a free word for it. -/
def Num32.nan : Num32 := ⟨0x7FC00000#32⟩

/-- `n / d` rounded to the nearest integer, ties to even. -/
def roundHalfEven (n d : Nat) : Nat :=
  if 2 * (n % d) < d then n / d
  else if d < 2 * (n % d) then n / d + 1
  else n / d + (n / d) % 2

/-- The exponent `e` with `2^e ≤ n / d < 2^(e+1)`, for positive `n` and `d`. -/
def ratioExponent (n d : Nat) : Int :=
  let e : Int := (Nat.log2 n : Int) - (Nat.log2 d : Int)
  if d <<< e.toNat ≤ n <<< (-e).toNat then e else e - 1

/-- The exact value `n / d` of the given sign, rounded once to binary32: to the multiple of the quantum (24
significant bits, no finer than 2^-149) that is nearest, ties to even; an infinity beyond the largest value. -/
def Num32.roundRatio (neg : Bool) (n d : Nat) : Num32 :=
  if n = 0 then Num32.signedZero neg
  else
    let q : Int := max (ratioExponent n d - 23) (-149)
    let m := roundHalfEven (n <<< (-q).toNat) (d <<< q.toNat)
    let mag := m + (q + 149).toNat * 2 ^ 23
    if 255 * 2 ^ 23 ≤ mag then Num32.infinity neg else Num32.pack neg mag

/-- Bitwise square root: the bits from `b - 1` down to 0 of the root of `n`, added to `r`. -/
def isqrtBits : Nat → Nat → Nat → Nat
  | 0, _, r => r
  | b + 1, n, r => if (r + 2 ^ b) * (r + 2 ^ b) ≤ n then isqrtBits b n (r + 2 ^ b) else isqrtBits b n r

/-- The integer square root, rounded down. -/
def isqrt (n : Nat) : Nat := isqrtBits (Nat.log2 n / 2 + 1) n 0

/-- `ofInt` of R9: an integer to `Num`, rounded. -/
def Num32.ofInt (z : Int) : Num32 := Num32.roundRatio (decide (z < 0)) z.natAbs 1

/-- Negation. -/
def Num32.neg (x : Num32) : Num32 := ⟨x.bits ^^^ 0x80000000#32⟩

/-- Absolute value. -/
def Num32.abs (x : Num32) : Num32 := ⟨x.bits &&& 0x7FFFFFFF#32⟩

/-- Addition. -/
def Num32.add (x y : Num32) : Num32 :=
  if x.isNaN || y.isNaN then Num32.nan
  else if x.isInf then (if y.isInf && (x.isNeg != y.isNeg) then Num32.nan else x)
  else if y.isInf then y
  else
    let sum := x.scaled + y.scaled
    if sum = 0 then Num32.signedZero (x.isNeg && y.isNeg)
    else Num32.roundRatio (decide (sum < 0)) sum.natAbs (2 ^ 149)

/-- Subtraction. -/
def Num32.sub (x y : Num32) : Num32 := Num32.add x (Num32.neg y)

/-- Multiplication. -/
def Num32.mul (x y : Num32) : Num32 :=
  let neg := x.isNeg != y.isNeg
  if x.isNaN || y.isNaN then Num32.nan
  else if x.isInf || y.isInf then (if x.isZero || y.isZero then Num32.nan else Num32.infinity neg)
  else Num32.roundRatio neg (x.scaledMag * y.scaledMag) (2 ^ 298)

/-- Division. -/
def Num32.div (x y : Num32) : Num32 :=
  let neg := x.isNeg != y.isNeg
  if x.isNaN || y.isNaN then Num32.nan
  else if x.isInf then (if y.isInf then Num32.nan else Num32.infinity neg)
  else if y.isInf then Num32.signedZero neg
  else if y.isZero then (if x.isZero then Num32.nan else Num32.infinity neg)
  else Num32.roundRatio neg x.scaledMag y.scaledMag

/-- Square root: `s + s'` with `s` the integer root of the scaled operand and `s'` half a unit if the root is not
exact, which rounds as the exact root does, since `s` has far more than 25 bits. -/
def Num32.sqrt (x : Num32) : Num32 :=
  if x.isNaN then Num32.nan
  else if x.isZero then x
  else if x.isNeg then Num32.nan
  else if x.isInf then x
  else
    let n := x.scaledMag * 2 ^ 149
    let s := isqrt n
    Num32.roundRatio false (2 * s + if s * s = n then 0 else 1) (2 ^ 150)

/-- The place of a value that is not a NaN on the number line, an infinity beyond every finite value. -/
def Num32.rank (x : Num32) : Int :=
  if x.isInf then (if x.isNeg then -(2 ^ 300) else 2 ^ 300) else x.scaled

/-- `a < b` of R9; both zeros are equal, a NaN is in no order with anything. -/
def Num32.lt (x y : Num32) : Bool := !x.isNaN && !y.isNaN && decide (x.rank < y.rank)

/-- `a <= b` of R9. -/
def Num32.le (x y : Num32) : Bool := !x.isNaN && !y.isNaN && decide (x.rank ≤ y.rank)

/-- `eq` of R9: equality as numbers, so that a negative zero equals zero (R189 corner case (b)). -/
def Num32.eq (x y : Num32) : Bool := !x.isNaN && !y.isNaN && decide (x.rank = y.rank)

/-- `num_enc` of R9. A NaN has no word of its own in the spec: it reads as the free word `Config.nanWord`. -/
def Num32.enc (x : Num32) : Word := if x.isNaN then Config.nanWord else x.bits

/-- `num_dec` of R9 and R81: `none` is INVALID, for a NaN or infinity bit pattern. -/
def Num32.dec (w : Word) : Option Num32 := if Num32.isFinite ⟨w⟩ then some ⟨w⟩ else none

/-- The binary32 value that a `Num` of that structure is. -/
def NumValue.toBinary32 (x : NumValue) : Num32 := ⟨BitVec.ofNat 32 x.code⟩

/-- A binary32 value as a `Num`: its number is its encoding. -/
def Num32.toNum (x : Num32) : NumValue := ⟨x.bits.toNat⟩

/-- `NUM` at its default (R6): binary32. The words of 1 and 360 are those of R89 and of the table of the test vectors'
section 0. -/
def NumStructure.binary32 : NumStructure where
  one := Num32.toNum ⟨0x3F800000#32⟩
  threeSixty := Num32.toNum ⟨0x43B40000#32⟩
  ofInt z := (Num32.ofInt z).toNum
  add x y := (Num32.add x.toBinary32 y.toBinary32).toNum
  sub x y := (Num32.sub x.toBinary32 y.toBinary32).toNum
  mul x y := (Num32.mul x.toBinary32 y.toBinary32).toNum
  div x y := (Num32.div x.toBinary32 y.toBinary32).toNum
  neg x := (Num32.neg x.toBinary32).toNum
  abs x := (Num32.abs x.toBinary32).toNum
  sqrt x := (Num32.sqrt x.toBinary32).toNum
  lt x y := Num32.lt x.toBinary32 y.toBinary32
  le x y := Num32.le x.toBinary32 y.toBinary32
  eq x y := Num32.eq x.toBinary32 y.toBinary32
  enc x := Num32.enc x.toBinary32
  dec w := (Num32.dec w).map Num32.toNum

/-- The numeric structure that a choice of `NUM` stands for (R6). -/
def NumChoice.ops : NumChoice → NumStructure
  | .binary32 => .binary32
  | .other id => Config.numStructure id

/-- `x > 0`, the test of the legal values of R27, R37, R162, R163, R171. -/
def NumStructure.positive (N : NumStructure) (x : NumValue) : Bool := N.lt NumValue.zero x

end Sys2Proof
end

