-- ==== Sys2Proof/Machine/State.lean ====
section
/-! DEFINITION. The whole state of the block (R20 to R43) as plain data, the reasons a step can stop, and the state
after power-on reset (R44, R250). The last four fields of `State` are the model's own: the implementation
parameters, the sample input port, the read data of the host port, and the list of what the agents do next. -/

namespace Sys2Proof.Machine

/-- Why the machine stops with a fault. The block itself never stops (R232: "no panics/aborts"). -/
inductive Fault where
  /-- A host access whose address is not in the window `HOST_BASE .. HOST_BASE + 0xFF`, the block's only address
  space (R60). Raised by the host port. Safe: the machine stops where the platform would address something else. -/
  | outsideWindow (addr : Nat)
deriving DecidableEq, Repr

/-- Why a step has no meaning. -/
inductive Refusal where
  /-- An operation without a meaning yet, by its mnemonic. Raised by arms of `exec` only; none is left. Safe. -/
  | notModelled (mnemonic : String)
deriving DecidableEq, Repr

/-- The result codes of R230. -/
inductive ResultCode where
  | ok
  | errOpcode
  | errReserved
  | errState
  | errPhase
  | errArg
  | errFull
  | errBusy
  | errCal
deriving DecidableEq, Repr

/-- The output requests of R242. -/
inductive Request where
  | adcInit
  | tmrInit
  | rtcInit
  | adcStart
  | adcStop
  | tmrStart
  | tmrStop
  | rtcStart
  | rtcStop
  | impActiveOn
  | impReactiveOn
  | impApparentOn
  | impActiveOff
  | impReactiveOff
  | impApparentOff
deriving DecidableEq, Repr

/-- The stored bits of `ctrl` (R24). Bit 4, `BUSY`, is derived from `seq.state`: see `State.busy`. -/
structure Ctrl where
  init : Bool
  adcEn : Bool
  tmrEn : Bool
  rtcEn : Bool
deriving DecidableEq, Repr

/-- The sticky fault word (R25). -/
structure FaultBits where
  ovf : Bool
  bus : Bool
deriving DecidableEq, Repr

/-- Calibration coefficients `ph[k].coef` (R27). -/
structure Coef where
  vrmsCoeff : NumValue
  irmsCoeff : NumValue
  pCoeff : NumValue
  viPhaseCorrection : NumValue
deriving DecidableEq, Repr

/-- Zero-cross tracker `ph[k].zc` (R28): `last` is an `int_SAMPLE_W`, `cyc` a `uint_CYC_W`. -/
structure ZeroCross where
  last : Int
  debounce : Bool
  synced : Bool
  cyc : Nat
deriving DecidableEq, Repr

/-- An accumulator set (R29, R30): four `int_ACC_W` sums and a `uint_CNT_W` sample count. -/
structure Accum where
  vacc : Int
  iacc : Int
  pacc : Int
  qacc : Int
  n : Nat
deriving DecidableEq, Repr

/-- A sample triple of three `int_SAMPLE_W` values (R31, R75). -/
structure Triple where
  v : Int
  i : Int
  v90 : Int
deriving DecidableEq, Repr

/-- Signal flags `ph[k].sig` (R32). -/
structure Signals where
  accReady : Bool
  measReady : Bool
  calAngle : Bool
deriving DecidableEq, Repr

/-- The status bitmask `ph[k].status` (R33), bit 0 first. -/
structure PhaseStatus where
  noloadP : Bool
  noloadQ : Bool
  noloadS : Bool
  sag : Bool
  swell : Bool
deriving DecidableEq, Repr

/-- Measurement fields `ph[k].meas` (R34). -/
structure Meas where
  vrms : NumValue
  irms : NumValue
  fline : NumValue
  p : NumValue
  q : NumValue
  s : NumValue
deriving DecidableEq, Repr

/-- Energy units: per phase `ph[k].eu` (R35), and the published totals `ledger.unit` (R38). -/
structure EnergyUnits where
  act : NumValue
  react : NumValue
  app : NumValue
deriving DecidableEq, Repr

/-- The angle status of R36; the value 3 of the 2-bit field is never written. -/
inductive AngStatus where
  | none
  | ok
  | phaseAngleError
deriving DecidableEq, Repr

/-- Phase-angle working state `ph[k].ang` (R36). -/
structure Angle where
  lastV : Int
  lastI : Int
  vFrac : NumValue
  iFrac : NumValue
  cnt : Nat
  status : AngStatus
deriving DecidableEq, Repr

/-- A registered phase slot (R26 to R36). -/
structure Slot where
  coef : Coef
  zc : ZeroCross
  live : Accum
  snap : Accum
  ws : Triple
  sig : Signals
  status : PhaseStatus
  meas : Meas
  eu : EnergyUnits
  ang : Angle
deriving DecidableEq, Repr

/-- The configuration record `cfg` (R37). -/
structure Cfg where
  updateInterval : Nat
  flineTolLow : NumValue
  flineTolHigh : NumValue
  meterConstant : NumValue
  noLoadP : NumValue
  sagThreshold : NumValue
  swellThreshold : NumValue
  ledOnCount : Nat
  fs : NumValue
  flineCoeff : NumValue
  degPerSample : NumValue
deriving DecidableEq, Repr

/-- The eight ledger categories of R39. -/
inductive Category where
  | actImp
  | actExp
  | appImp
  | appExp
  | lReactImp
  | cReactImp
  | lReactExp
  | cReactExp
deriving DecidableEq, Repr

/-- The number of a category (R39). -/
def Category.index : Category → Fin 8
  | .actImp => 0
  | .actExp => 1
  | .appImp => 2
  | .appExp => 3
  | .lReactImp => 4
  | .cReactImp => 5
  | .lReactExp => 6
  | .cReactExp => 7

/-- The energy ledger (R38, R39): the published totals, the eight Watt-second accumulators and the eight lifetime
pulse counters (`uint_LIFE_W`), by category number. -/
structure Ledger where
  unit : EnergyUnits
  acc : Vector NumValue 8
  life : Vector Nat 8
deriving DecidableEq, Repr

/-- The three impulse LEDs of R40 and R185. -/
inductive LedId where
  | act
  | react
  | app
deriving DecidableEq, Repr

/-- One impulse LED (R40): `cnt` is a `uint_32`. -/
structure Led where
  on : Bool
  cnt : Nat
deriving DecidableEq, Repr

/-- The impulse-LED state `led` (R40). -/
structure Leds where
  act : Led
  react : Led
  app : Led
deriving DecidableEq, Repr

/-- The fs-calibration singleton `cfs` (R41); `rtcCnt` and `adcCnt` are `uint_32`, `target` a `uint_8`. -/
structure Cfs where
  start : Bool
  running : Bool
  finished : Bool
  rtcCnt : Nat
  adcCnt : Nat
  target : Nat
deriving DecidableEq, Repr

/-- The sequencer states of R42 and R160. -/
inductive SeqState where
  | idle
  | pcalW1
  | pcalW2
  | gcalW
deriving DecidableEq, Repr

/-- The orchestrator sequencer `seq` (R42): `target` is a `uint_8`, `savedUi` a `uint_16`, `rtcCycles` a `uint_32`. -/
structure Seq where
  state : SeqState
  target : Nat
  savedUi : Nat
  vrmsTgt : NumValue
  irmsTgt : NumValue
  rtcCycles : Nat
  rtcPeriod : NumValue
  flineTarget : NumValue
  result : ResultCode
deriving DecidableEq, Repr

/-- What the world outside the block, or one of its agents, does next (R5, R60, R75, R240, R250). -/
inductive Stimulus where
  /-- The HOST agent writes `v` at byte address `addr` with an access of `width` bits (R61 to R63). -/
  | hostWrite (addr width : Nat) (v : Word)
  /-- The HOST agent reads at byte address `addr` with an access of `width` bits (R61 to R63). -/
  | hostRead (addr width : Nat)
  /-- The ADC agent delivers one sample triple per registered slot (R75, R190). -/
  | adc (smp : List Triple)
  /-- A tick of the periodic timer (R140). -/
  | tmr
  /-- A tick of the RTC (R180). -/
  | rtc
  /-- The SEQ agent takes its step (R170). -/
  | seq
  /-- An operation word goes to the decoder, whatever its class (R83; log entries 2 and 3). -/
  | op (w : Word)
  /-- Power-on reset (R250). -/
  | powerOn
deriving DecidableEq, Repr

/-- The state of the block (R20), and after it the model's own fields. -/
structure State where
  /-- Control bits (R24). -/
  ctrl : Ctrl
  /-- Sticky fault word (R25). -/
  fault : FaultBits
  /-- The registered slots in registration order (R26). `n_phases` is its length: see `State.nPhases`. An
  unregistered slot holds nothing, since no rule reads its contents (log entry 9). -/
  ph : List Slot
  /-- Configuration record (R37). -/
  cfg : Cfg
  /-- Energy ledger (R38, R39). -/
  ledger : Ledger
  /-- Impulse LEDs (R40). -/
  led : Leds
  /-- The fs-calibration singleton (R41). -/
  cfs : Cfs
  /-- The sequencer (R42). -/
  seq : Seq
  /-- Operand registers (R22). -/
  A : Vector Word 16
  /-- Response registers (R22). -/
  R : Vector Word 16
  /-- Result code of the last host command (R23). -/
  rc : ResultCode
  /-- Output requests so far, oldest first (R43). -/
  trace : List Request
  /-- MODEL: implementation parameters (R6), written by no step (log entry 5). -/
  par : Params
  /-- MODEL: the sample input port: the triples the ADC agent drives (R75, log entry 10). -/
  smp : List Triple
  /-- MODEL: the word the last host read returned (R61, log entry 11). -/
  rdata : Word
  /-- MODEL: what happens next, first element first: the free order of the agents (R5, R69, log entry 1). -/
  inbox : List Stimulus
deriving DecidableEq, Repr

/-- `n_phases` (R26). -/
def State.nPhases (s : State) : Nat := s.ph.length

/-- `ctrl.BUSY`, derived from `seq.state` (R24, R160). -/
def State.busy (s : State) : Bool := s.seq.state != .idle

/-- An accumulator set of zeros (R29, R30, R116). -/
def Accum.cleared : Accum := ⟨0, 0, 0, 0, 0⟩

/-- Energy units of zero (R35, R38, R116, R131). -/
def EnergyUnits.cleared : EnergyUnits := ⟨NumValue.zero, NumValue.zero, NumValue.zero⟩

/-- Measurements of zero (R34, R116, R131). -/
def Meas.cleared : Meas := ⟨NumValue.zero, NumValue.zero, NumValue.zero, NumValue.zero, NumValue.zero, NumValue.zero⟩

/-- The configuration after power-on reset: every field 0 (R37). -/
def Cfg.cleared : Cfg where
  updateInterval := 0
  flineTolLow := NumValue.zero
  flineTolHigh := NumValue.zero
  meterConstant := NumValue.zero
  noLoadP := NumValue.zero
  sagThreshold := NumValue.zero
  swellThreshold := NumValue.zero
  ledOnCount := 0
  fs := NumValue.zero
  flineCoeff := NumValue.zero
  degPerSample := NumValue.zero

/-- An LED that is off, its counter 0 (R40). -/
def Led.off : Led := ⟨false, 0⟩

/-- The sequencer after power-on reset: `IDLE`, result `OK`, every other field 0 (R42, R250). -/
def Seq.idle : Seq where
  state := .idle
  target := 0
  savedUi := 0
  vrmsTgt := NumValue.zero
  irmsTgt := NumValue.zero
  rtcCycles := 0
  rtcPeriod := NumValue.zero
  flineTarget := NumValue.zero
  result := .ok

/-- The block right after power-on reset (R44, R250): every register 0, nothing registered, the trace empty. The
model's own fields: the default parameters of R6, no triple at the sample port, read data 0, nothing to come. -/
def State.reset : State where
  ctrl := ⟨false, false, false, false⟩
  fault := ⟨false, false⟩
  ph := []
  cfg := Cfg.cleared
  ledger := ⟨EnergyUnits.cleared, Vector.replicate 8 NumValue.zero, Vector.replicate 8 0⟩
  led := ⟨Led.off, Led.off, Led.off⟩
  cfs := ⟨false, false, false, 0, 0, 0⟩
  seq := Seq.idle
  A := Vector.replicate 16 0#32
  R := Vector.replicate 16 0#32
  rc := .ok
  trace := []
  par := Params.default
  smp := []
  rdata := 0#32
  inbox := []

end Sys2Proof.Machine
end

