-- ==== Sys2Proof/Machine/Ops.lean ====
section
/-! DEFINITION. The named operations over the state that every rule shares: `store_N` (R8), the output trace (R10,
R242), the driver requests paired with their control bits (R24), the slots (R26), the LEDs (R40), the response
registers (R22) and the end of a host command (R200, R230). The block has no memory (R60) and no trap (R236): a result
code, set by `State.setRc`, and a sticky fault bit, set by `State.noteOvf` and `State.noteBus`, stand where another
machine would take an exception. -/

namespace Sys2Proof.Machine

/-- The outcome of one operation or one step. -/
abbrev StepResult := Host.Outcome State Fault Refusal

/-- `store_N` of R8 into an unsigned field of `w` bits: the exact value if it fits, else its residue modulo `2^w` and
the fault. -/
def storeUnsigned (w : Nat) (v : Int) : Stored Nat :=
  if 0 ≤ v ∧ v < 2 ^ w then ⟨v.toNat, false⟩ else ⟨(v % 2 ^ w).toNat, true⟩

/-- `store_N` of R8 into a two's complement field of `w` bits: the exact value if it fits, else the value of that
range congruent to it modulo `2^w` and the fault. -/
def storeSigned (w : Nat) (v : Int) : Stored Int :=
  if -(2 ^ (w - 1)) ≤ v ∧ v < 2 ^ (w - 1) then ⟨v, false⟩
  else ⟨(v + 2 ^ (w - 1)) % 2 ^ w - 2 ^ (w - 1), true⟩

/-- `v` is a value of `int_w` (R8). -/
def fitsSigned (w : Nat) (v : Int) : Bool := decide (-(2 ^ (w - 1)) ≤ v) && decide (v < 2 ^ (w - 1))

/-- The numeric structure `NUM` of the implementation (R6, R9). -/
abbrev State.num (s : State) : NumStructure := s.par.num.ops

/-- Set `fault.OVF` if `b`; the bit is sticky (R25, R233). -/
def State.noteOvf (b : Bool) (s : State) : State :=
  { s with fault := { s.fault with ovf := s.fault.ovf || b } }

/-- Set `fault.BUS`; the bit is sticky (R25, R63). -/
def State.noteBus (s : State) : State := { s with fault := { s.fault with bus := true } }

/-- `emit(E)`: append an output request to the trace (R10, R43). -/
def State.emit (e : Request) (s : State) : State := { s with trace := s.trace ++ [e] }

/-- `emit(ADC_Start); ctrl.ADC_EN <- 1` (R24, R242). -/
def State.startAdc (s : State) : State :=
  { s.emit .adcStart with ctrl := { s.ctrl with adcEn := true } }

/-- `emit(ADC_Stop); ctrl.ADC_EN <- 0` (R24, R242). -/
def State.stopAdc (s : State) : State :=
  { s.emit .adcStop with ctrl := { s.ctrl with adcEn := false } }

/-- `emit(TMR_Start); ctrl.TMR_EN <- 1` (R24, R242). -/
def State.startTmr (s : State) : State :=
  { s.emit .tmrStart with ctrl := { s.ctrl with tmrEn := true } }

/-- `emit(TMR_Stop); ctrl.TMR_EN <- 0` (R24, R242). -/
def State.stopTmr (s : State) : State :=
  { s.emit .tmrStop with ctrl := { s.ctrl with tmrEn := false } }

/-- `emit(RTC_Start); ctrl.RTC_EN <- 1` (R24, R242). -/
def State.startRtc (s : State) : State :=
  { s.emit .rtcStart with ctrl := { s.ctrl with rtcEn := true } }

/-- `emit(RTC_Stop); ctrl.RTC_EN <- 0` (R24, R242). -/
def State.stopRtc (s : State) : State :=
  { s.emit .rtcStop with ctrl := { s.ctrl with rtcEn := false } }

/-- `k < n_phases`: slot `k` is registered (R26). -/
def State.registered (s : State) (k : Nat) : Bool := decide (k < s.nPhases)

/-- Replace the contents of slot `k`; an unregistered slot has none. -/
def State.setSlot (k : Nat) (p : Slot) (s : State) : State := { s with ph := s.ph.set k p }

/-- Run an operation on slot `k`, recording an overflow in `fault.OVF` (R8). On an unregistered slot there is no
such step and nothing changes (R26, log entry 4). -/
def State.updateSlot (k : Nat) (f : Slot → Stored Slot) (s : State) : State :=
  match s.ph[k]? with
  | none => s
  | some p => (s.setSlot k (f p).val).noteOvf (f p).ovf

/-- The state of LED `l` (R40). -/
def Leds.get (l : LedId) (d : Leds) : Led :=
  match l with
  | .act => d.act
  | .react => d.react
  | .app => d.app

/-- Replace the state of LED `l` (R40). -/
def Leds.put (l : LedId) (x : Led) (d : Leds) : Leds :=
  match l with
  | .act => { d with act := x }
  | .react => { d with react := x }
  | .app => { d with app := x }

/-- Replace the state of LED `l`. -/
def State.setLed (l : LedId) (x : Led) (s : State) : State := { s with led := s.led.put l x }

/-- The On request of an LED (R185). -/
def LedId.onRequest : LedId → Request
  | .act => .impActiveOn
  | .react => .impReactiveOn
  | .app => .impApparentOn

/-- The Off request of an LED (R185). -/
def LedId.offRequest : LedId → Request
  | .act => .impActiveOff
  | .react => .impReactiveOff
  | .app => .impApparentOff

/-- Write the words of a list into consecutive registers from number `i` on; a word beyond register 15 goes nowhere. -/
def writeFrom (i : Nat) : List Word → Vector Word 16 → Vector Word 16
  | [], r => r
  | v :: vs, r => writeFrom (i + 1) vs (r.setIfInBounds i v)

/-- The number of a result code (R230). -/
def ResultCode.code : ResultCode → Nat
  | .ok => 0
  | .errOpcode => 1
  | .errReserved => 2
  | .errState => 3
  | .errPhase => 4
  | .errArg => 5
  | .errFull => 6
  | .errBusy => 7
  | .errCal => 8

/-- `RC <- rc` (R23). -/
def State.setRc (rc : ResultCode) (s : State) : State := { s with rc := rc }

/-- The end of a command that returns `OK`: its results go to `R[0..]` in order, the other response registers stay, and
`RC <- OK` (R22, R82, R200). -/
def State.respond (results : List Word) (s : State) : State :=
  { s with R := writeFrom 0 results s.R, rc := .ok }

/-- The code of the first check that fails, the checks listed in the order of R231. A check is given by whether it
FAILS and the code it gives. -/
def firstFailure : List (Bool × ResultCode) → Option ResultCode
  | [] => none
  | (fails, rc) :: rest => if fails then some rc else firstFailure rest

/-- A host command (R200): the first failing check gives `RC` and nothing else changes; else the command's effect,
its results, and `RC <- OK`. -/
def hostCommand (checks : List (Bool × ResultCode)) (after : State) (results : List Word) (s : State) : StepResult :=
  match firstFailure checks with
  | some rc => .next (s.setRc rc)
  | none => .next (after.respond results)

end Sys2Proof.Machine
end

