-- ==== Sys2Proof/Machine/Operands.lean ====
section
/-! DEFINITION. Operand and result assembly (R81, R82): how a command takes its operands from the operand registers
`A[j]` and forms the words of its results. `none` is an operand that makes the command return `ERR_ARG`. -/

namespace Sys2Proof.Machine

/-- A `Num` operand: `num_dec` of the word, INVALID or outside the legal values being `none` (R81). -/
def numOperand (N : NumStructure) (legal : NumValue → Bool) (w : Word) : Option NumValue :=
  match N.dec w with
  | none => none
  | some x => if legal x then some x else none

/-- An integer operand: the whole 32-bit word, unsigned (R81), within `lo .. hi`. -/
def natOperand (lo hi : Nat) (w : Word) : Option Nat :=
  if lo ≤ w.toNat ∧ w.toNat ≤ hi then some w.toNat else none

/-- Any value `num_dec` accepts is legal. -/
def anyNum (_ : NumValue) : Bool := true

/-- `x >= 0`. -/
def nonNegative (N : NumStructure) (x : NumValue) : Bool := N.le NumValue.zero x

/-- `x` lies in `[0, limit)`: the legal values of an accumulator that ENERGY_SET restores (R207). -/
def belowLimit (N : NumStructure) (limit x : NumValue) : Bool := N.le NumValue.zero x && N.lt x limit

/-- The configuration INIT loads from `A[0..10]`, if every operand is legal (R37, R201). -/
def readCfg (N : NumStructure) (a : Vector Word 16) : Option Cfg :=
  match natOperand 1 65535 a[0], numOperand N anyNum a[1], numOperand N anyNum a[2],
    numOperand N N.positive a[3], numOperand N (nonNegative N) a[4], numOperand N anyNum a[5],
    numOperand N anyNum a[6], natOperand 0 (2 ^ 32 - 2) a[7], numOperand N N.positive a[8],
    numOperand N anyNum a[9], numOperand N anyNum a[10] with
  | some ui, some tl, some th, some mc, some nl, some sag, some swl, some led, some fs, some flc, some dps =>
    some ⟨ui, tl, th, mc, nl, sag, swl, led, fs, flc, dps⟩
  | _, _, _, _, _, _, _, _, _, _, _ => none

/-- The coefficients PHASE_LOAD_CAL loads from `A[0..3]`, if every operand is legal (R206). -/
def readCoef (N : NumStructure) (a : Vector Word 16) : Option Coef :=
  match numOperand N N.positive a[0], numOperand N N.positive a[1], numOperand N N.positive a[2],
    numOperand N anyNum a[3] with
  | some vc, some ic, some pc, some corr => some ⟨vc, ic, pc, corr⟩
  | _, _, _, _ => none

/-- The targets of PHASE_CALIBRATE from `A[0]` and `A[1]`, if legal (R162). -/
def readTargets (N : NumStructure) (a : Vector Word 16) : Option (NumValue × NumValue) :=
  match numOperand N N.positive a[0], numOperand N N.positive a[1] with
  | some vt, some it => some (vt, it)
  | _, _ => none

/-- The operands of GLOBAL_CALIBRATE from `A[0..2]`, if legal: RTC cycles, RTC period, line frequency (R163). -/
def readWindow (N : NumStructure) (a : Vector Word 16) : Option (Nat × NumValue × NumValue) :=
  match natOperand 1 (2 ^ 32 - 1) a[0], numOperand N N.positive a[1], numOperand N N.positive a[2] with
  | some rc, some rp, some ft => some (rc, rp, ft)
  | _, _, _ => none

/-- The eight accumulators ENERGY_SET restores from `A[0..7]`, if each lies in `[0, limit)` (R207). -/
def readAccumulators (N : NumStructure) (limit : NumValue) (a : Vector Word 16) : Option (Vector NumValue 8) :=
  match numOperand N (belowLimit N limit) a[0], numOperand N (belowLimit N limit) a[1],
    numOperand N (belowLimit N limit) a[2], numOperand N (belowLimit N limit) a[3],
    numOperand N (belowLimit N limit) a[4], numOperand N (belowLimit N limit) a[5],
    numOperand N (belowLimit N limit) a[6], numOperand N (belowLimit N limit) a[7] with
  | some x0, some x1, some x2, some x3, some x4, some x5, some x6, some x7 =>
    some #v[x0, x1, x2, x3, x4, x5, x6, x7]
  | _, _, _, _, _, _, _, _ => none

/-- The eight lifetime counters ENERGY_SET restores from `A[8..15]`, if each is below `2^lifeW` (R207). -/
def readLifetimes (lifeW : Nat) (a : Vector Word 16) : Option (Vector Nat 8) :=
  match natOperand 0 (2 ^ lifeW - 1) a[8], natOperand 0 (2 ^ lifeW - 1) a[9],
    natOperand 0 (2 ^ lifeW - 1) a[10], natOperand 0 (2 ^ lifeW - 1) a[11],
    natOperand 0 (2 ^ lifeW - 1) a[12], natOperand 0 (2 ^ lifeW - 1) a[13],
    natOperand 0 (2 ^ lifeW - 1) a[14], natOperand 0 (2 ^ lifeW - 1) a[15] with
  | some n0, some n1, some n2, some n3, some n4, some n5, some n6, some n7 =>
    some #v[n0, n1, n2, n3, n4, n5, n6, n7]
  | _, _, _, _, _, _, _, _ => none

/-- An integer result as a `uint_32` (R82). -/
def natWord (n : Nat) : Word := BitVec.ofNat 32 n

/-- A `bool` result: 0 or 1 (R82). -/
def boolWord (b : Bool) : Word := if b then 1#32 else 0#32

end Sys2Proof.Machine
end

