-- ==== Sys2Proof/Machine/Flags.lean ====
section
/-! DEFINITION. The flags: the status bitmask of a phase as a word (R33) and how a measured window sets it (R133,
R134), the control word and the fault word of STAT_GET (R24, R25, R219), and the codes of the two small status fields
a command reads (R36, R42). -/

namespace Sys2Proof.Machine

/-- The weight of a flag in a word: `2^bit` if it is set. -/
def flagAt (bit : Nat) (b : Bool) : Nat := if b then 2 ^ bit else 0

/-- The status bitmask as `uint_5`, zero-extended (R33, R209). -/
def PhaseStatus.word (t : PhaseStatus) : Word :=
  natWord (flagAt 0 t.noloadP + flagAt 1 t.noloadQ + flagAt 2 t.noloadS + flagAt 3 t.sag + flagAt 4 t.swell)

/-- A status bitmask of 0 (R116). -/
def PhaseStatus.cleared : PhaseStatus := ⟨false, false, false, false, false⟩

/-- Sag and swell (R133): both comparisons strict, sag tested first, so never both. -/
def PhaseStatus.setVoltage (N : NumStructure) (vrms sagThreshold swellThreshold : NumValue) (t : PhaseStatus) :
    PhaseStatus :=
  if N.lt vrms sagThreshold then { t with sag := true, swell := false }
  else if N.lt swellThreshold vrms then { t with sag := false, swell := true }
  else { t with sag := false, swell := false }

/-- `|x| < no_load_p`: the value is no-load (R134). -/
def isNoLoad (N : NumStructure) (threshold x : NumValue) : Bool := N.lt (N.abs x) threshold

/-- A power as it is published: forced to 0 when it is no-load (R134). -/
def publishedPower (N : NumStructure) (threshold x : NumValue) : NumValue :=
  if isNoLoad N threshold x then NumValue.zero else x

/-- The energy per sample of a power: 0 when it is no-load, else `x / fs` (R134). -/
def energyPerSample (N : NumStructure) (threshold fs x : NumValue) : NumValue :=
  if isNoLoad N threshold x then NumValue.zero else N.div x fs

/-- The control word of STAT_GET (R24, R219). -/
def State.ctrlWord (s : State) : Word :=
  natWord (flagAt 0 s.ctrl.init + flagAt 1 s.ctrl.adcEn + flagAt 2 s.ctrl.tmrEn + flagAt 3 s.ctrl.rtcEn
    + flagAt 4 s.busy)

/-- The fault word of STAT_GET (R25, R219). -/
def FaultBits.word (f : FaultBits) : Word := natWord (flagAt 0 f.ovf + flagAt 1 f.bus)

/-- The value of the 2-bit angle status (R36). -/
def AngStatus.code : AngStatus → Nat
  | .none => 0
  | .ok => 1
  | .phaseAngleError => 2

/-- The value of the 2-bit sequencer state (R42). -/
def SeqState.code : SeqState → Nat
  | .idle => 0
  | .pcalW1 => 1
  | .pcalW2 => 2
  | .gcalW => 3

end Sys2Proof.Machine
end

