-- ==== Sys2Proof/Machine/ZeroCross.lean ====
section
/-! DEFINITION. The zero-cross detector (R101 to R103). -/

namespace Sys2Proof.Machine

/-- The condition of a rising crossing (R101); signed comparisons. -/
def ZeroCross.crosses (sample : Int) (z : ZeroCross) : Bool :=
  !z.debounce && decide (z.last ≤ 0) && decide (0 < sample)

/-- ZCD_DETECT on a tracker (R101). The value the rule returns is the tracker's `debounce` afterwards. -/
def detectCrossing (cycW : Nat) (sample : Int) (z : ZeroCross) : Stored ZeroCross :=
  if z.crosses sample then
    if z.synced then
      let c := storeUnsigned cycW ((z.cyc : Int) + 1)
      ⟨{ z with debounce := true, cyc := c.val, last := sample }, c.ovf⟩
    else ⟨{ z with debounce := true, synced := true, cyc := 0, last := sample }, false⟩
  else ⟨{ z with debounce := false, last := sample }, false⟩

/-- ZCD_DETECT k (R101), on the voltage sample of the slot's workspace. -/
def execZcdDetect (k : Nat) (s : State) : StepResult :=
  .next (s.updateSlot k fun p =>
    let z := detectCrossing s.par.cycW p.ws.v p.zc
    ⟨{ p with zc := z.val }, z.ovf⟩)

end Sys2Proof.Machine
end

