-- ==== Sys2Proof/Machine/Window.lean ====
section
/-! DEFINITION. The accumulation primitive, the phase window and the hard reset (R110 to R118). -/

namespace Sys2Proof.Machine

/-- The contribution of one triple: the four products and a count of 1 (R111). `qacc` takes the shifted voltage times
the current (C2). -/
def Triple.contribution (t : Triple) : Accum := ⟨t.v * t.v, t.i * t.i, t.v * t.i, t.v90 * t.i, 1⟩

/-- Add the contribution of a triple to a set, each field stored in its width (R112, R8). -/
def Accum.accumulate (par : Params) (t : Triple) (a : Accum) : Stored Accum :=
  let v := storeSigned par.accW (a.vacc + t.v * t.v)
  let i := storeSigned par.accW (a.iacc + t.i * t.i)
  let p := storeSigned par.accW (a.pacc + t.v * t.i)
  let q := storeSigned par.accW (a.qacc + t.v90 * t.i)
  let n := storeUnsigned par.cntW ((a.n : Int) + 1)
  ⟨⟨v.val, i.val, p.val, q.val, n.val⟩, v.ovf || i.ovf || p.ovf || q.ovf || n.ovf⟩

/-- ACC_RESET on a slot (R111). -/
def Slot.accReset (p : Slot) : Slot := { p with live := p.ws.contribution }

/-- ACC_ACCUMULATE on a slot (R112). -/
def Slot.accAccumulate (par : Params) (p : Slot) : Stored Slot :=
  let a := p.live.accumulate par p.ws
  ⟨{ p with live := a.val }, a.ovf⟩

/-- ACC_LOAD on a slot: all five fields in one assignment (R113). -/
def Slot.accLoad (p : Slot) : Slot := { p with snap := p.live }

/-- Close the window (R114 step 4): snapshot, flag, reset to the current sample, cycle counter to 0. The snapshot is
taken whether or not an earlier one was consumed (R118). -/
def Slot.closeWindow (p : Slot) : Slot :=
  let loaded := p.accLoad
  let reset := { loaded with sig := { loaded.sig with accReady := true } }.accReset
  { reset with zc := { reset.zc with cyc := 0 } }

/-- PHASE_SAMPLE on a slot (R114): detect, accumulate once synchronised, close the window once the cycle counter has
reached `update_interval`. -/
def Slot.phaseSample (par : Params) (updateInterval : Nat) (p : Slot) : Stored Slot :=
  let z := detectCrossing par.cycW p.ws.v p.zc
  let detected := { p with zc := z.val }
  if detected.zc.synced then
    let a := detected.accAccumulate par
    if updateInterval ≤ a.val.zc.cyc then ⟨a.val.closeWindow, z.ovf || a.ovf⟩
    else ⟨a.val, z.ovf || a.ovf⟩
  else ⟨detected, z.ovf⟩

/-- HARD_RESET on a slot (R116): everything to 0 but the coefficients and the angle working state. -/
def Slot.hardReset (p : Slot) : Slot :=
  { p with
    zc := ⟨0, false, false, 0⟩
    live := Accum.cleared
    snap := Accum.cleared
    ws := ⟨0, 0, 0⟩
    sig := ⟨false, false, false⟩
    status := PhaseStatus.cleared
    meas := Meas.cleared
    eu := EnergyUnits.cleared }

/-- The initial-registration value of a slot (R45, R205): unit coefficients, angle state 0, everything else as hard
reset leaves it. -/
def Slot.registration (N : NumStructure) : Slot where
  coef := ⟨N.one, N.one, N.one, NumValue.zero⟩
  zc := ⟨0, false, false, 0⟩
  live := Accum.cleared
  snap := Accum.cleared
  ws := ⟨0, 0, 0⟩
  sig := ⟨false, false, false⟩
  status := PhaseStatus.cleared
  meas := Meas.cleared
  eu := EnergyUnits.cleared
  ang := ⟨0, 0, NumValue.zero, NumValue.zero, 0, .none⟩

/-- ACC_RESET k (R111). -/
def execAccReset (k : Nat) (s : State) : StepResult := .next (s.updateSlot k fun p => ⟨p.accReset, false⟩)

/-- ACC_ACCUMULATE k (R112). -/
def execAccAccumulate (k : Nat) (s : State) : StepResult := .next (s.updateSlot k fun p => p.accAccumulate s.par)

/-- ACC_LOAD k (R113). -/
def execAccLoad (k : Nat) (s : State) : StepResult := .next (s.updateSlot k fun p => ⟨p.accLoad, false⟩)

/-- PHASE_SAMPLE k (R114), for a slot with `cal_angle = 0`: another slot takes no such step (log entry 4). -/
def execPhaseSample (k : Nat) (s : State) : StepResult :=
  .next (s.updateSlot k fun p =>
    if p.sig.calAngle then ⟨p, false⟩ else p.phaseSample s.par s.cfg.updateInterval)

/-- HARD_RESET k (R116). -/
def execHardReset (k : Nat) (s : State) : StepResult := .next (s.updateSlot k fun p => ⟨p.hardReset, false⟩)

end Sys2Proof.Machine
end

