-- ==== Sys2Proof/Machine/Measure.lean ====
section
/-! DEFINITION. The measurement engine (R130 to R141). Each written operator is one rounded operation, left to right
(R9). -/

namespace Sys2Proof.Machine

/-- The mean of an accumulator over the window: `ofInt(acc) / N` (R132). -/
def windowMean (N : NumStructure) (acc : Int) (n : NumValue) : NumValue := N.div (N.ofInt acc) n

/-- `fline = fline_coeff / N` (R130). -/
def lineFrequency (N : NumStructure) (cfg : Cfg) (sn : Accum) : NumValue := N.div cfg.flineCoeff (N.ofInt sn.n)

/-- `fline` lies outside the closed tolerance band (R130). -/
def outOfBand (N : NumStructure) (cfg : Cfg) (fl : NumValue) : Bool :=
  N.lt fl cfg.flineTolLow || N.lt cfg.flineTolHigh fl

/-- `Vrms = sqrt(vacc/N) / vrms_coeff` and `Irms` likewise (R132). -/
def rms (N : NumStructure) (acc : Int) (n : Nat) (coeff : NumValue) : NumValue :=
  N.div (N.sqrt (windowMean N acc (N.ofInt n))) coeff

/-- `power_divisor = N * p_coeff` (R132). -/
def powerDivisor (N : NumStructure) (c : Coef) (sn : Accum) : NumValue := N.mul (N.ofInt sn.n) c.pCoeff

/-- `P = pacc / power_divisor` (R132). -/
def activePower (N : NumStructure) (c : Coef) (sn : Accum) : NumValue := N.div (N.ofInt sn.pacc) (powerDivisor N c sn)

/-- `Q = qacc / power_divisor` (R132). -/
def reactivePower (N : NumStructure) (c : Coef) (sn : Accum) : NumValue := N.div (N.ofInt sn.qacc) (powerDivisor N c sn)

/-- `S = sqrt(iacc * vacc) / power_divisor`, the product taken in `Num` (R132). -/
def apparentPower (N : NumStructure) (c : Coef) (sn : Accum) : NumValue :=
  N.div (N.sqrt (N.mul (N.ofInt sn.iacc) (N.ofInt sn.vacc))) (powerDivisor N c sn)

/-- INVALID_WINDOW (R131): measurements and energy units 0, the status bitmask as it was. -/
def Slot.invalidWindow (p : Slot) : Slot := { p with meas := Meas.cleared, eu := EnergyUnits.cleared }

/-- VALID_WINDOW (R132 to R134). -/
def Slot.validWindow (N : NumStructure) (cfg : Cfg) (p : Slot) : Slot :=
  let vrms := rms N p.snap.vacc p.snap.n p.coef.vrmsCoeff
  let irms := rms N p.snap.iacc p.snap.n p.coef.irmsCoeff
  let pw := activePower N p.coef p.snap
  let qw := reactivePower N p.coef p.snap
  let sw := apparentPower N p.coef p.snap
  let voltage := p.status.setVoltage N vrms cfg.sagThreshold cfg.swellThreshold
  { p with
    meas :=
      { vrms := vrms
        irms := irms
        fline := lineFrequency N cfg p.snap
        p := publishedPower N cfg.noLoadP pw
        q := publishedPower N cfg.noLoadP qw
        s := publishedPower N cfg.noLoadP sw }
    status :=
      { voltage with
        noloadP := isNoLoad N cfg.noLoadP pw
        noloadQ := isNoLoad N cfg.noLoadP qw
        noloadS := isNoLoad N cfg.noLoadP sw }
    eu :=
      { act := energyPerSample N cfg.noLoadP cfg.fs pw
        react := energyPerSample N cfg.noLoadP cfg.fs qw
        app := energyPerSample N cfg.noLoadP cfg.fs sw } }

/-- MEASURE_PHASE on a slot (R130, R135): consume the snapshot, measure it or zero the outputs, mark the measurements
ready. -/
def Slot.measure (N : NumStructure) (cfg : Cfg) (p : Slot) : Slot :=
  let measured :=
    if outOfBand N cfg (lineFrequency N cfg p.snap) then p.invalidWindow else p.validWindow N cfg
  { measured with sig := { measured.sig with accReady := false, measReady := true } }

/-- The part of EV_TMR that concerns one slot: a slot whose window is ready is measured (R140). -/
def Slot.timerTick (N : NumStructure) (cfg : Cfg) (p : Slot) : Slot := if p.sig.accReady then p.measure N cfg else p

/-- One addition of PUBLISH_TOTALS (R141). -/
def addUnits (N : NumStructure) (t : EnergyUnits) (p : Slot) : EnergyUnits :=
  ⟨N.add t.act p.eu.act, N.add t.react p.eu.react, N.add t.app p.eu.app⟩

/-- The totals of PUBLISH_TOTALS, from zero, in registration order (R141). -/
def totalUnits (N : NumStructure) (ph : List Slot) : EnergyUnits := ph.foldl (addUnits N) EnergyUnits.cleared

/-- MEASURE_PHASE k (R130), for a slot with `acc_ready = 1`: another slot takes no such step (log entry 4). -/
def execMeasurePhase (k : Nat) (s : State) : StepResult :=
  .next (s.updateSlot k fun p => ⟨p.timerTick s.num s.cfg, false⟩)

/-- EV_TMR (R140, R141), enabled while `ctrl.TMR_EN = 1` (R240); an event that is not enabled does not happen. -/
def execEvTmr (s : State) : StepResult :=
  if s.ctrl.tmrEn then
    let ph := s.ph.map (Slot.timerTick s.num s.cfg)
    .next { s with ph := ph, ledger := { s.ledger with unit := totalUnits s.num ph } }
  else .next s

end Sys2Proof.Machine
end

