-- ==== Sys2Proof/Machine/AngleCal.lean ====
section
/-! DEFINITION. The phase-angle calibration sub-mode (R150 to R153). -/

namespace Sys2Proof.Machine

/-- ANGLE_ENTER on a slot (R150): the last-sample fields primed with 1, the rest of the working state 0. -/
def Slot.angleEnter (p : Slot) : Slot :=
  { p with
    ang := ⟨1, 1, NumValue.zero, NumValue.zero, 0, .none⟩
    sig := { p.sig with calAngle := true } }

/-- FRAC(new, last) (R152): 0 for a previous sample of 0, else the ratio of the new sample to the step. -/
def crossingFraction (N : NumStructure) (new last : Int) : NumValue :=
  if last = 0 then NumValue.zero else N.div (N.ofInt new) (N.ofInt (new - last))

/-- A rising crossing of one signal, without a debounce term (R151). -/
def rises (last new : Int) : Bool := decide (last ≤ 0) && decide (0 < new)

/-- ANGLE_SAMPLE when both signals cross (R151), `c` the incremented counter: the fractions are added, and a counter
past `update_interval` ends the sub-mode. -/
def Slot.angleCrossing (N : NumStructure) (updateInterval : Nat) (c : Stored Nat) (p : Slot) : Stored Slot :=
  let summed : Angle :=
    { p.ang with
      vFrac := N.add p.ang.vFrac (crossingFraction N p.ws.v p.ang.lastV)
      iFrac := N.add p.ang.iFrac (crossingFraction N p.ws.i p.ang.lastI)
      cnt := c.val
      lastV := p.ws.v
      lastI := p.ws.i }
  if updateInterval < c.val then
    ⟨{ p with ang := { summed with status := .ok }, sig := { p.sig with calAngle := false } }, c.ovf⟩
  else ⟨{ p with ang := summed }, c.ovf⟩

/-- ANGLE_SAMPLE on a slot (R151). -/
def Slot.angleSample (N : NumStructure) (updateInterval : Nat) (p : Slot) : Stored Slot :=
  let v := rises p.ang.lastV p.ws.v
  let i := rises p.ang.lastI p.ws.i
  if v && i then p.angleCrossing N updateInterval (storeUnsigned 32 ((p.ang.cnt : Int) + 1))
  else if v || i then
    ⟨{ p with ang := { p.ang with status := .phaseAngleError, lastV := p.ws.v, lastI := p.ws.i } }, false⟩
  else ⟨{ p with ang := { p.ang with lastV := p.ws.v, lastI := p.ws.i } }, false⟩

/-- ANGLE_ENTER k (R150). -/
def execAngleEnter (k : Nat) (s : State) : StepResult := .next (s.updateSlot k fun p => ⟨p.angleEnter, false⟩)

/-- ANGLE_SAMPLE k (R151), for a slot with `cal_angle = 1`: another slot takes no such step (log entry 4). -/
def execAngleSample (k : Nat) (s : State) : StepResult :=
  .next (s.updateSlot k fun p =>
    if p.sig.calAngle then p.angleSample s.num s.cfg.updateInterval else ⟨p, false⟩)

end Sys2Proof.Machine
end

