-- ==== Sys2Proof/Machine/Energy.lean ====
section
/-! DEFINITION. The ADC step, the energy ledger and the impulse LEDs (R185 to R191). -/

namespace Sys2Proof.Machine

/-- The LED of a ledger category (R185). With `APP_EXP_LED_QUIRK` the apparent-export category drives the active
LED. -/
def Category.ledOf (quirk : Bool) : Category → LedId
  | .actImp => .act
  | .actExp => .act
  | .appImp => .app
  | .appExp => if quirk then .act else .app
  | .lReactImp => .react
  | .cReactImp => .react
  | .lReactExp => .react
  | .cReactExp => .react

/-- RETRIGGER L (R186): the On request is emitted even if the LED is already on. -/
def State.retrigger (l : LedId) (s : State) : State := (s.setLed l ⟨true, 0⟩).emit l.onRequest

/-- The part of LED_DECAY that concerns one LED (R187): increment, then compare; an LED that is off does not count. -/
def State.decayLed (l : LedId) (s : State) : State :=
  if (s.led.get l).on then
    let c := storeUnsigned 32 (((s.led.get l).cnt : Int) + 1)
    if s.cfg.ledOnCount < c.val then ((s.setLed l Led.off).emit l.offRequest).noteOvf c.ovf
    else (s.setLed l ⟨true, c.val⟩).noteOvf c.ovf
  else s

/-- LED_DECAY (R187), in the order ACT, REACT, APP. -/
def State.ledDecay (s : State) : State := ((s.decayLed .act).decayLed .react).decayLed .app

/-- The accumulator of a category (R39). -/
def Ledger.accOf (c : Category) (g : Ledger) : NumValue := g.acc[c.index]

/-- The lifetime counter of a category (R39). -/
def Ledger.lifeOf (c : Category) (g : Ledger) : Nat := g.life[c.index]

/-- Replace the accumulator of a category. -/
def State.setAcc (c : Category) (x : NumValue) (s : State) : State :=
  { s with ledger := { s.ledger with acc := s.ledger.acc.set c.index x } }

/-- Replace the lifetime counter of a category. -/
def State.setLife (c : Category) (n : Nat) (s : State) : State :=
  { s with ledger := { s.ledger with life := s.ledger.life.set c.index n } }

/-- ADD c, x (R188): the magnitude is added, one rollover at most, the lifetime counter wraps silently. -/
def State.addEnergy (c : Category) (x : NumValue) (s : State) : State :=
  let sum := s.num.add (s.ledger.accOf c) (s.num.abs x)
  if s.num.le s.cfg.meterConstant sum then
    ((s.setAcc c (s.num.sub sum s.cfg.meterConstant)).setLife c
      ((s.ledger.lifeOf c + 1) % 2 ^ s.par.lifeW)).retrigger (c.ledOf s.par.appExpLedQuirk)
  else s.setAcc c sum

/-- ENERGY_ROUTE (R189): the active sign chooses import or export, the reactive sign the reactive category; the three
ADDs in the order active, apparent, reactive. -/
def State.energyRoute (s : State) : State :=
  let u := s.ledger.unit
  if s.num.le NumValue.zero u.act then
    let t := (s.addEnergy .actImp u.act).addEnergy .appImp u.app
    if s.num.le NumValue.zero u.react then t.addEnergy .lReactImp u.react else t.addEnergy .cReactExp u.react
  else
    let t := (s.addEnergy .actExp u.act).addEnergy .appExp u.app
    if s.num.le NumValue.zero u.react then t.addEnergy .cReactImp u.react else t.addEnergy .lReactExp u.react

/-- LED_DECAY (R187). -/
def execLedDecay (s : State) : StepResult := .next s.ledDecay

/-- ENERGY_ROUTE (R189). -/
def execEnergyRoute (s : State) : StepResult := .next s.energyRoute

/-- A triple of `int_SAMPLE_W` values: nothing else can be delivered (R75). -/
def Triple.inRange (w : Nat) (t : Triple) : Bool := fitsSigned w t.v && fitsSigned w t.i && fitsSigned w t.v90

/-- The sample input holds one triple of the sample width for each registered slot (R75). -/
def State.sampleInputOk (s : State) : Bool :=
  s.smp.length == s.ph.length && s.smp.all (Triple.inRange s.par.sampleW)

/-- EV_ADC is enabled while `ctrl.ADC_EN = 1` (R240) and has a sample input (R75, log entry 10). -/
def State.adcEnabled (s : State) : Bool := s.ctrl.adcEn && s.sampleInputOk

/-- The part of EV_ADC that concerns one slot (R190): the triple goes to the workspace (R110), then the slot's mode
decides between the angle sub-mode and normal accumulation. -/
def Slot.takeSample (N : NumStructure) (par : Params) (updateInterval : Nat) (p : Slot) (t : Triple) : Stored Slot :=
  let loaded := { p with ws := t }
  if p.sig.calAngle then loaded.angleSample N updateInterval else loaded.phaseSample par updateInterval

/-- Every slot of EV_ADC with its triple, in registration order (R190, R70). -/
def State.sampledSlots (s : State) : List (Stored Slot) :=
  List.zipWith (Slot.takeSample s.num s.par s.cfg.updateInterval) s.ph s.smp

/-- The phase processing of EV_ADC (R190). -/
def State.processPhases (s : State) : State :=
  { s with ph := s.sampledSlots.map Stored.val }.noteOvf (s.sampledSlots.any Stored.ovf)

/-- `any_ang` of R190, decided by `cal_angle` at the moment a slot is processed. -/
def State.anyAngle (s : State) : Bool := s.ph.any fun p => p.sig.calAngle

/-- The counting step of the fs-calibration window (R190): only `cfs.adc_cnt` advances. -/
def State.countSample (s : State) : State :=
  let c := storeUnsigned 32 ((s.cfs.adcCnt : Int) + 1)
  { s with cfs := { s.cfs with adcCnt := c.val } }.noteOvf c.ovf

/-- EV_ADC (R190); an event that is not enabled does not happen (R240). -/
def execEvAdc (s : State) : StepResult :=
  if s.adcEnabled then
    if s.cfs.running then .next s.countSample
    else if s.anyAngle then .next s.processPhases
    else .next s.processPhases.ledDecay.energyRoute
  else .next s

end Sys2Proof.Machine
end

