-- ==== Sys2Proof/Machine/Orchestrator.lean ====
section
/-! DEFINITION. The calibration orchestrator (R160 to R176) and the RTC step that gates its window (R180 to R182). -/

namespace Sys2Proof.Machine

/-- The checks that refuse a command while a sequence runs (R161). -/
def busyCheck (s : State) : Bool × ResultCode := (s.busy, .errBusy)

/-- The check that a configuration is loaded. -/
def initCheck (s : State) : Bool × ResultCode := (!s.ctrl.init, .errState)

/-- The check that the `PH` field names a registered slot (R230). -/
def phaseCheck (k : Nat) (s : State) : Bool × ResultCode := (!s.registered k, .errPhase)

/-- HARD_RESET of slot `k` inside another step (R116). -/
def State.hardResetSlot (k : Nat) (s : State) : State := s.updateSlot k fun p => ⟨p.hardReset, false⟩

/-- The effect of PHASE_CALIBRATE (R162), its operands read. -/
def State.beginPhaseCal (k lc : Nat) (vrmsTgt irmsTgt : NumValue) (s : State) : State :=
  let stopped := s.stopAdc.stopTmr
  let armed :=
    { stopped with
      seq :=
        { stopped.seq with
          target := k
          savedUi := stopped.cfg.updateInterval
          vrmsTgt := vrmsTgt
          irmsTgt := irmsTgt
          state := .pcalW1 }
      cfg := { stopped.cfg with updateInterval := lc } }
  (armed.hardResetSlot k).startAdc

/-- PHASE_CALIBRATE k, lc (R162). -/
def execPhaseCalibrate (k lc : Nat) (s : State) : StepResult :=
  match readTargets s.num s.A with
  | none => hostCommand [busyCheck s, initCheck s, phaseCheck k s, (true, .errArg)] s [] s
  | some (vt, it) =>
    hostCommand [busyCheck s, initCheck s, phaseCheck k s, (lc == 0, .errArg)] (s.beginPhaseCal k lc vt it) [] s

/-- Start the RTC if it is stopped (R163). -/
def State.ensureRtc (s : State) : State := if s.ctrl.rtcEn then s else s.startRtc

/-- The effect of GLOBAL_CALIBRATE (R163), its operands read. -/
def State.beginGlobalCal (rtcCycles : Nat) (rtcPeriod flineTarget : NumValue) (s : State) : State :=
  let stopped := s.stopAdc.stopTmr.ensureRtc
  { stopped with
    seq :=
      { stopped.seq with
        rtcCycles := rtcCycles
        rtcPeriod := rtcPeriod
        flineTarget := flineTarget
        state := .gcalW }
    cfs := ⟨true, false, false, rtcCycles, 0, 0⟩ }

/-- GLOBAL_CALIBRATE (R163). -/
def execGlobalCalibrate (s : State) : StepResult :=
  match readWindow s.num s.A with
  | none => hostCommand [busyCheck s, initCheck s, (true, .errArg)] s [] s
  | some (rc, rp, ft) => hostCommand [busyCheck s, initCheck s] (s.beginGlobalCal rc rp ft) [] s

/-- The end of a phase calibration that failed, or of one that is done: restart ADC and timer, record the result, go
to `IDLE` (R171, R172, R173). -/
def State.endSequence (result : ResultCode) (s : State) : State :=
  let started := s.startAdc.startTmr
  { started with seq := { started.seq with result := result, state := .idle } }

/-- The coefficients computed from the measured window and the targets (R171). -/
def calibrated (N : NumStructure) (vrmsTgt irmsTgt : NumValue) (sn : Accum) (old : Coef) : Coef :=
  let vc := rms N sn.vacc sn.n vrmsTgt
  let ic := rms N sn.iacc sn.n irmsTgt
  { old with vrmsCoeff := vc, irmsCoeff := ic, pCoeff := N.mul vc ic }

/-- Every computed coefficient is `> 0` (R171). -/
def Coef.usable (N : NumStructure) (c : Coef) : Bool :=
  N.positive c.vrmsCoeff && N.positive c.irmsCoeff && N.positive c.pCoeff

/-- `cfg.update_interval <- seq.saved_ui` (R171). -/
def State.restoreInterval (s : State) : State := { s with cfg := { s.cfg with updateInterval := s.seq.savedUi } }

/-- SEQ_STEP in `PCAL_W1` (R171), `p` the target slot. -/
def State.finishCoefficients (p : Slot) (s : State) : State :=
  let k := s.seq.target
  let restored := s.stopAdc.restoreInterval
  let c := calibrated s.num s.seq.vrmsTgt s.seq.irmsTgt p.snap p.coef
  if c.usable s.num then
    let entered := (restored.setSlot k (({ p with coef := c } : Slot).hardReset.angleEnter)).startAdc
    { entered with seq := { entered.seq with state := .pcalW2 } }
  else (restored.setSlot k p.hardReset).endSequence .errCal

/-- `vi_phase_correction` of R172: `((i_frac / n) - (v_frac / n)) * deg_per_sample`. -/
def phaseCorrection (N : NumStructure) (degPerSample : NumValue) (a : Angle) : NumValue :=
  let n := N.ofInt a.cnt
  N.mul (N.sub (N.div a.iFrac n) (N.div a.vFrac n)) degPerSample

/-- SEQ_STEP in `PCAL_W2` (R172), `p` the target slot. -/
def State.finishAngle (p : Slot) (s : State) : State :=
  let c := { p.coef with viPhaseCorrection := phaseCorrection s.num s.cfg.degPerSample p.ang }
  (s.stopAdc.setSlot s.seq.target ({ p with coef := c } : Slot).hardReset).endSequence .ok

/-- `fs = adc_sample_count / (rtc_period * rtc_cycles)` (R173). -/
def measuredFs (N : NumStructure) (q : Seq) (adcCnt : Nat) : NumValue :=
  N.div (N.ofInt adcCnt) (N.mul q.rtcPeriod (N.ofInt q.rtcCycles))

/-- The configuration after a sampling-frequency calibration (R173). -/
def Cfg.recalibrated (N : NumStructure) (fs flineTarget : NumValue) (c : Cfg) : Cfg :=
  { c with
    fs := fs
    flineCoeff := N.mul fs (N.ofInt c.updateInterval)
    degPerSample := N.div (N.mul N.threeSixty flineTarget) fs }

/-- SEQ_STEP in `GCAL_W` (R173). -/
def State.finishGlobal (s : State) : State :=
  let closed := { s with cfs := { s.cfs with finished := false } }
  if s.cfs.adcCnt = 0 then closed.endSequence .errCal
  else
    { closed with
      cfg := s.cfg.recalibrated s.num (measuredFs s.num s.seq s.cfs.adcCnt) s.seq.flineTarget }.endSequence .ok

/-- SEQ_STEP (R170): enabled when the flag that the state polls is true (R160); a step that is not enabled does not
happen, and there is no timeout (R174). -/
def execSeqStep (s : State) : StepResult :=
  match s.seq.state, s.ph[s.seq.target]? with
  | .idle, _ => .next s
  | .pcalW1, none => .next s
  | .pcalW1, some p => if p.sig.accReady then .next (s.finishCoefficients p) else .next s
  | .pcalW2, none => .next s
  | .pcalW2, some p => if p.sig.calAngle then .next s else .next (s.finishAngle p)
  | .gcalW, _ => if s.cfs.finished then .next s.finishGlobal else .next s

/-- SEQ_STATUS (R175). -/
def execSeqStatus (s : State) : StepResult :=
  hostCommand [] s [natWord s.seq.state.code, natWord s.seq.result.code, natWord s.seq.target] s

/-- The words PHASE_CAL_GET answers for a slot (R176). -/
def Slot.calWords (N : NumStructure) (p : Slot) : List Word :=
  [N.enc p.coef.vrmsCoeff, N.enc p.coef.irmsCoeff, N.enc p.coef.pCoeff,
    N.enc p.coef.viPhaseCorrection, natWord p.ang.status.code]

/-- A command that only reads registered slot `k` (R176, R209 to R216). -/
def readSlotCommand (k : Nat) (words : Slot → List Word) (s : State) : StepResult :=
  match s.ph[k]? with
  | none => hostCommand [(true, .errPhase)] s [] s
  | some p => hostCommand [] s (words p) s

/-- PHASE_CAL_GET k (R176). -/
def execPhaseCalGet (k : Nat) (s : State) : StepResult := readSlotCommand k (Slot.calWords s.num) s

/-- EV_RTC (R180): the tick that arms the window starts the ADC, each later tick counts down, the one that reaches 0
stops it. Outside the window, or when the event is not enabled (R240), nothing happens. -/
def execEvRtc (s : State) : StepResult :=
  if s.ctrl.rtcEn then
    if s.cfs.start then .next { s with cfs := { s.cfs with start := false, running := true } }.startAdc
    else if s.cfs.running then
      let c := storeUnsigned 32 ((s.cfs.rtcCnt : Int) - 1)
      if c.val = 0 then
        .next
          ({ s with cfs := { s.cfs with rtcCnt := c.val, running := false, finished := true } }.stopAdc.noteOvf c.ovf)
      else .next ({ s with cfs := { s.cfs with rtcCnt := c.val } }.noteOvf c.ovf)
    else .next s
  else .next s

end Sys2Proof.Machine
end

