-- ==== Sys2Proof/Machine/HostApi.lean ====
section
/-! DEFINITION. The host commands of R201 to R219. Each lists its checks in the order of R231. -/

namespace Sys2Proof.Machine

/-- The ADC or the timer runs: the configuration and the phase table may not change (R201, R205). -/
def samplingCheck (s : State) : Bool × ResultCode := (s.ctrl.adcEn || s.ctrl.tmrEn, .errState)

/-- The effect of INIT (R201). -/
def State.configure (c : Cfg) (s : State) : State :=
  (({ s with cfg := c, ctrl := { s.ctrl with init := true } }.emit .adcInit).emit .tmrInit).emit .rtcInit

/-- INIT (R201). -/
def execInit (s : State) : StepResult :=
  match readCfg s.num s.A with
  | none => hostCommand [busyCheck s, samplingCheck s, (true, .errArg)] s [] s
  | some c => hostCommand [busyCheck s, samplingCheck s] (s.configure c) [] s

/-- Stop the three sources (R202, R204). -/
def State.stopAll (s : State) : State := s.stopAdc.stopTmr.stopRtc

/-- Start the three sources (R203). -/
def State.startAll (s : State) : State := s.startAdc.startTmr.startRtc

/-- The effect of DEINIT (R202). -/
def State.release (s : State) : State :=
  let stopped := s.stopAll
  { stopped with ph := [], ctrl := { stopped.ctrl with init := false } }

/-- DEINIT (R202). -/
def execDeinit (s : State) : StepResult := hostCommand [busyCheck s] s.release [] s

/-- START (R203). -/
def execStart (s : State) : StepResult := hostCommand [busyCheck s, initCheck s] s.startAll [] s

/-- STOP (R204). -/
def execStop (s : State) : StepResult := hostCommand [busyCheck s] s.stopAll [] s

/-- PHASE_REGISTER (R205). -/
def execPhaseRegister (s : State) : StepResult :=
  hostCommand [busyCheck s, initCheck s, samplingCheck s, (decide (s.par.nPhaseMax ≤ s.nPhases), .errFull)]
    { s with ph := s.ph ++ [Slot.registration s.num] } [natWord s.nPhases] s

/-- PHASE_LOAD_CAL k (R206). -/
def execPhaseLoadCal (k : Nat) (s : State) : StepResult :=
  match readCoef s.num s.A with
  | none => hostCommand [busyCheck s, phaseCheck k s, (true, .errArg)] s [] s
  | some c =>
    hostCommand [busyCheck s, phaseCheck k s] (s.updateSlot k fun p => ⟨{ p with coef := c }, false⟩) [] s

/-- ENERGY_SET (R207); allowed while busy and while running. -/
def execEnergySet (s : State) : StepResult :=
  match readAccumulators s.num s.cfg.meterConstant s.A, readLifetimes s.par.lifeW s.A with
  | some acc, some life =>
    hostCommand [initCheck s] { s with ledger := { s.ledger with acc := acc, life := life } } [] s
  | _, _ => hostCommand [initCheck s, (true, .errArg)] s [] s

/-- The words of ENERGY_GET (R208): the eight accumulators, then the eight lifetime counters. -/
def Ledger.words (N : NumStructure) (g : Ledger) : List Word := g.acc.toList.map N.enc ++ g.life.toList.map natWord

/-- ENERGY_GET (R208). -/
def execEnergyGet (s : State) : StepResult := hostCommand [] s (s.ledger.words s.num) s

/-- STATUS_GET k (R209). -/
def execStatusGet (k : Nat) (s : State) : StepResult := readSlotCommand k (fun p => [p.status.word]) s

/-- VRMS_GET k (R210). -/
def execVrmsGet (k : Nat) (s : State) : StepResult := readSlotCommand k (fun p => [s.num.enc p.meas.vrms]) s

/-- IRMS_GET k (R211). -/
def execIrmsGet (k : Nat) (s : State) : StepResult := readSlotCommand k (fun p => [s.num.enc p.meas.irms]) s

/-- FLINE_GET k (R212). -/
def execFlineGet (k : Nat) (s : State) : StepResult := readSlotCommand k (fun p => [s.num.enc p.meas.fline]) s

/-- P_GET k (R213). -/
def execPGet (k : Nat) (s : State) : StepResult := readSlotCommand k (fun p => [s.num.enc p.meas.p]) s

/-- Q_GET k (R214). -/
def execQGet (k : Nat) (s : State) : StepResult := readSlotCommand k (fun p => [s.num.enc p.meas.q]) s

/-- S_GET k (R215). -/
def execSGet (k : Nat) (s : State) : StepResult := readSlotCommand k (fun p => [s.num.enc p.meas.s]) s

/-- The six words of MEAS_GET (R216). -/
def Meas.words (N : NumStructure) (m : Meas) : List Word :=
  [N.enc m.vrms, N.enc m.irms, N.enc m.fline, N.enc m.p, N.enc m.q, N.enc m.s]

/-- MEAS_GET k (R216). -/
def execMeasGet (k : Nat) (s : State) : StepResult := readSlotCommand k (fun p => p.meas.words s.num) s

/-- The total energy of a category (R217): `ofInt(life) * meter_constant + acc`. -/
def consumption (N : NumStructure) (meterConstant acc : NumValue) (life : Nat) : NumValue :=
  N.add (N.mul (N.ofInt life) meterConstant) acc

/-- CONS_GET (R217). -/
def execConsGet (s : State) : StepResult :=
  hostCommand [initCheck s] s
    (List.zipWith (fun a n => s.num.enc (consumption s.num s.cfg.meterConstant a n))
      s.ledger.acc.toList s.ledger.life.toList) s

/-- MEAS_READY k (R218): test and clear in one step. -/
def execMeasReady (k : Nat) (s : State) : StepResult :=
  match s.ph[k]? with
  | none => hostCommand [(true, .errPhase)] s [] s
  | some p =>
    hostCommand [] (s.setSlot k { p with sig := { p.sig with measReady := false } }) [boolWord p.sig.measReady] s

/-- STAT_GET (R219). -/
def execStatGet (s : State) : StepResult :=
  hostCommand [] s [s.ctrlWord, natWord s.nPhases, s.fault.word] s

end Sys2Proof.Machine
end

