-- ==== Sys2Proof/Machine/Dispatch.lean ====
section
/-! DEFINITION. The dispatch of an operation to its meaning, one arm per row of R84. -/

namespace Sys2Proof.Machine

def exec (i : Instr) (s : State) : Host.Outcome State Fault Refusal :=
  match i with
  | .zcdDetect k => Sys2Proof.Machine.execZcdDetect k s
  | .accReset k => Sys2Proof.Machine.execAccReset k s
  | .accAccumulate k => Sys2Proof.Machine.execAccAccumulate k s
  | .accLoad k => Sys2Proof.Machine.execAccLoad k s
  | .phaseSample k => Sys2Proof.Machine.execPhaseSample k s
  | .hardReset k => Sys2Proof.Machine.execHardReset k s
  | .measurePhase k => Sys2Proof.Machine.execMeasurePhase k s
  | .angleEnter k => Sys2Proof.Machine.execAngleEnter k s
  | .angleSample k => Sys2Proof.Machine.execAngleSample k s
  | .ledDecay => Sys2Proof.Machine.execLedDecay s
  | .energyRoute => Sys2Proof.Machine.execEnergyRoute s
  | .seqStep => Sys2Proof.Machine.execSeqStep s
  | .evAdc => Sys2Proof.Machine.execEvAdc s
  | .evTmr => Sys2Proof.Machine.execEvTmr s
  | .evRtc => Sys2Proof.Machine.execEvRtc s
  | .init => Sys2Proof.Machine.execInit s
  | .deinit => Sys2Proof.Machine.execDeinit s
  | .start => Sys2Proof.Machine.execStart s
  | .stop => Sys2Proof.Machine.execStop s
  | .phaseRegister => Sys2Proof.Machine.execPhaseRegister s
  | .phaseLoadCal k => Sys2Proof.Machine.execPhaseLoadCal k s
  | .phaseCalibrate k lc => Sys2Proof.Machine.execPhaseCalibrate k lc s
  | .globalCalibrate => Sys2Proof.Machine.execGlobalCalibrate s
  | .energySet => Sys2Proof.Machine.execEnergySet s
  | .energyGet => Sys2Proof.Machine.execEnergyGet s
  | .statusGet k => Sys2Proof.Machine.execStatusGet k s
  | .vrmsGet k => Sys2Proof.Machine.execVrmsGet k s
  | .irmsGet k => Sys2Proof.Machine.execIrmsGet k s
  | .flineGet k => Sys2Proof.Machine.execFlineGet k s
  | .pGet k => Sys2Proof.Machine.execPGet k s
  | .qGet k => Sys2Proof.Machine.execQGet k s
  | .sGet k => Sys2Proof.Machine.execSGet k s
  | .measGet k => Sys2Proof.Machine.execMeasGet k s
  | .consGet => Sys2Proof.Machine.execConsGet s
  | .measReady k => Sys2Proof.Machine.execMeasReady k s
  | .phaseCalGet k => Sys2Proof.Machine.execPhaseCalGet k s
  | .seqStatus => Sys2Proof.Machine.execSeqStatus s
  | .statGet => Sys2Proof.Machine.execStatGet s

end Sys2Proof.Machine
end

