-- ==== Sys2Proof/Machine/HostPort.lean ====
section
/-! DEFINITION. The ways into the block: the host port (R60 to R66), the delivery of operation words and events (R83,
R85, R240), and power-on reset (R250). -/

namespace Sys2Proof.Machine

/-- The result code of a word the decoder rejects (R85). -/
def decodeErrorCode : DecodeError → ResultCode
  | .illegalOpcode => .errOpcode
  | .reservedField => .errReserved
  | .wrongLength => .errOpcode

/-- An operation word at the decoder: the operation it encodes runs; a word that encodes none leaves its code in `RC`
and changes nothing else (R85, R86). -/
def runWord (w : Word) (s : State) : StepResult :=
  match decode w with
  | .ok i => exec i s
  | .error e => .next (s.setRc (decodeErrorCode e))

/-- A host write of `OPW` (R85): a word outside the host class gives `ERR_OPCODE`, whatever its other fields; any other
word goes to the decoder. -/
def issueCommand (w : Word) (s : State) : StepResult :=
  if isHostOpcode (opField w) then runWord w s else .next (s.setRc .errOpcode)

/-- The registers of the host port (R61). -/
inductive PortRegister where
  | opw
  | rc
  | operand (j : Fin 16)
  | response (j : Fin 16)
  | reserved
deriving DecidableEq, Repr

/-- The register at an offset that is a multiple of 4 in the window (R61). -/
def portRegister (off : Nat) : PortRegister :=
  if off = 0x000 then .opw
  else if off = 0x004 then .rc
  else if 0x040 ≤ off ∧ off < 0x080 then .operand (Fin.ofNat 16 ((off - 0x040) / 4))
  else if 0x080 ≤ off ∧ off < 0x0C0 then .response (Fin.ofNat 16 ((off - 0x080) / 4))
  else .reserved

/-- The offset of a byte address in the window of 0x100 bytes at `HOST_BASE` (R60). -/
def windowOffset (par : Params) (addr : Nat) : Option Nat :=
  if par.hostBase ≤ addr ∧ addr < par.hostBase + 0x100 then some (addr - par.hostBase) else none

/-- An access the port admits: 32 bits wide, at an offset that is a multiple of 4 (R62, R63). -/
def admitted (off width : Nat) : Bool := off % 4 == 0 && width == 32

/-- `A[j] <- v` (R61). -/
def State.writeOperand (j : Fin 16) (v : Word) (s : State) : State := { s with A := s.A.set j v }

/-- The word a host read of a register returns (R61). -/
def State.readRegister (r : PortRegister) (s : State) : Word :=
  match r with
  | .opw => 0#32
  | .rc => natWord s.rc.code
  | .operand j => s.A[j]
  | .response j => s.R[j]
  | .reserved => 0#32

/-- The effect of an admitted host write on a register (R61, R65). -/
def writeRegister (r : PortRegister) (v : Word) (s : State) : StepResult :=
  match r with
  | .opw => issueCommand v s
  | .rc => .next s
  | .operand j => .next (s.writeOperand j v)
  | .response _ => .next s
  | .reserved => .next s

/-- A host write (R61 to R63). -/
def hostWrite (addr width : Nat) (v : Word) (s : State) : StepResult :=
  match windowOffset s.par addr with
  | none => .fault (.outsideWindow addr)
  | some off => if admitted off width then writeRegister (portRegister off) v s else .next s.noteBus

/-- A host read (R61 to R63): the word returned stands on the read data lines; no register changes. -/
def hostRead (addr width : Nat) (s : State) : StepResult :=
  match windowOffset s.par addr with
  | none => .fault (.outsideWindow addr)
  | some off =>
    if admitted off width then .next { s with rdata := s.readRegister (portRegister off) }
    else .next { s.noteBus with rdata := 0#32 }

/-- Power-on reset (R250): every field to its reset value; the implementation stays the same one, and what the world
does next is not the block's state. -/
def powerOnReset (s : State) : State := { State.reset with par := s.par, inbox := s.inbox }

/-- One stimulus, taken to completion (R67). -/
def takeStimulus (x : Stimulus) (s : State) : StepResult :=
  match x with
  | .hostWrite addr width v => hostWrite addr width v s
  | .hostRead addr width => hostRead addr width s
  | .adc smp => exec .evAdc { s with smp := smp }
  | .tmr => exec .evTmr s
  | .rtc => exec .evRtc s
  | .seq => exec .seqStep s
  | .op w => runWord w s
  | .powerOn => .next (powerOnReset s)

/-- Take the next stimulus. With none to come no agent steps, and the block stays as it is (R245). -/
def takeNext (s : State) : StepResult :=
  match s.inbox with
  | [] => .next s
  | x :: rest => takeStimulus x { s with inbox := rest }

/-- Put an operation word before everything else to come. -/
def placeWord (w : Word) (s : State) : State := { s with inbox := .op w :: s.inbox }

end Sys2Proof.Machine
end

