-- ==== Sys2Proof/Machine/Step.lean ====
section
/-! DEFINITION. One step of the machine: the next stimulus, taken whole (R5, R67, R69). -/

namespace Sys2Proof.Machine

/-- One step of whichever agent acts next (R5, R69). -/
def step (s : State) : Host.Outcome State Fault Refusal := takeNext s

/-- `s` with the operation word `w` of `nbits` bits as what happens next. -/
def State.withFetchWord (s : State) (nbits w : Nat) : State := placeWord (BitVec.ofNat 32 (w % 2 ^ nbits)) s

end Sys2Proof.Machine
end

