-- ==== Sys2Proof/Safety.lean ====
section
/-! DEFINITION. What a safe run of the block is, in the terms the statements use: no fault recorded, every field in its
range, and the invariants the rules promise. -/

namespace Sys2Proof

/-- What ADD of R188 leaves of an accumulator `a` and a magnitude `|x|`: the sum, or what one rollover leaves of it. -/
def NumStructure.addResult (N : NumStructure) (limit a x : NumValue) : NumValue :=
  if N.le limit (N.add a (N.abs x)) then N.sub (N.add a (N.abs x)) limit else N.add a (N.abs x)

end Sys2Proof

namespace Sys2Proof.Machine

/-- A step that went on. -/
def continues (r : StepResult) : Bool :=
  match r with
  | .next _ => true
  | .fault _ => false
  | .refused _ => false

/-- No fault recorded: the premise of R63 and R233 for a claim about a run. -/
abbrev State.noFault (s : State) : Prop := s.fault.ovf = false ∧ s.fault.bus = false

/-- The triple's values lie in `int_w` (R75). -/
abbrev Triple.Fits (w : Nat) (t : Triple) : Prop :=
  fitsSigned w t.v = true ∧ fitsSigned w t.i = true ∧ fitsSigned w t.v90 = true

/-- The sums and the count of an accumulator set lie in their widths (R29). -/
abbrev Accum.Fits (par : Params) (a : Accum) : Prop :=
  fitsSigned par.accW a.vacc = true ∧ fitsSigned par.accW a.iacc = true ∧
  fitsSigned par.accW a.pacc = true ∧ fitsSigned par.accW a.qacc = true ∧ a.n < 2 ^ par.cntW

/-- Every integer field of a slot lies in its width (R28 to R31, R36). -/
abbrev Slot.Fits (par : Params) (p : Slot) : Prop :=
  fitsSigned par.sampleW p.zc.last = true ∧ p.zc.cyc < 2 ^ par.cycW ∧
  p.live.Fits par ∧ p.snap.Fits par ∧ p.ws.Fits par.sampleW ∧
  fitsSigned par.sampleW p.ang.lastV = true ∧ fitsSigned par.sampleW p.ang.lastI = true ∧
  p.ang.cnt < 2 ^ 32

/-- Every integer field of the block lies in the range its rule states (R26, R28 to R31, R36, R37, R39 to R42). -/
abbrev State.FieldsInRange (s : State) : Prop :=
  s.ph.length ≤ s.par.nPhaseMax ∧ (∀ p ∈ s.ph, p.Fits s.par) ∧
  s.cfg.updateInterval < 2 ^ 16 ∧ s.cfg.ledOnCount ≤ 2 ^ 32 - 2 ∧
  (∀ c : Category, s.ledger.lifeOf c < 2 ^ s.par.lifeW) ∧
  s.led.act.cnt < 2 ^ 32 ∧ s.led.react.cnt < 2 ^ 32 ∧ s.led.app.cnt < 2 ^ 32 ∧
  s.cfs.rtcCnt < 2 ^ 32 ∧ s.cfs.adcCnt < 2 ^ 32 ∧ s.cfs.target < 2 ^ 8 ∧
  s.seq.target < 2 ^ 8 ∧ s.seq.savedUi < 2 ^ 16 ∧ s.seq.rtcCycles < 2 ^ 32

/-- `SAG` and `SWELL` are never both 1 (R33). -/
abbrev State.StatusExclusive (s : State) : Prop :=
  ∀ p ∈ s.ph, ¬ (p.status.sag = true ∧ p.status.swell = true)

/-- A debounce flag that is set stands after a positive sample (R102). -/
abbrev State.DebouncePositive (s : State) : Prop :=
  ∀ p ∈ s.ph, p.zc.debounce = true → 0 < p.zc.last

/-- An operation some agent takes as a step of its own (R5): all but the micro-operations that exist only inside
another step (R83). SEQ_STEP is the step of the SEQ agent. -/
def Instr.isAgentStep (i : Instr) : Bool := i.opClass != .micro || i == .seqStep

/-- A stimulus the agents of R5 can give: everything but a micro-operation that is no agent's step. -/
def Stimulus.fromAgents (x : Stimulus) : Bool :=
  match x with
  | .op w =>
    match decode w with
    | .ok i => Instr.isAgentStep i
    | .error _ => true
  | .hostWrite _ _ _ => true
  | .hostRead _ _ => true
  | .adc _ => true
  | .tmr => true
  | .rtc => true
  | .seq => true
  | .powerOn => true

/-- Only the agents of R5 act. -/
abbrev State.AgentsOnly (s : State) : Prop := ∀ x ∈ s.inbox, x.fromAgents = true

/-- Unless an overflow was recorded, a ready snapshot counts at least one sample and the sums of squares are not
negative (R30, R117, R132). -/
abbrev State.SnapshotsMeasurable (s : State) : Prop :=
  s.fault.ovf = false → ∀ p ∈ s.ph,
    (p.sig.accReady = true → 1 ≤ p.snap.n) ∧
    0 ≤ p.live.vacc ∧ 0 ≤ p.live.iacc ∧ 0 ≤ p.snap.vacc ∧ 0 ≤ p.snap.iacc

/-- Exactly one of the three flags of the fs-calibration singleton is set. -/
abbrev Cfs.OneHot (c : Cfs) : Prop :=
  (c.start = true ∧ c.running = false ∧ c.finished = false) ∨
  (c.start = false ∧ c.running = true ∧ c.finished = false) ∨
  (c.start = false ∧ c.running = false ∧ c.finished = true)

/-- The control state is coherent: nothing runs and nothing is registered before INIT (R37), the flags of `cfs` belong
to the global calibration and are never two (R41), a window that is not finished has RTC ticks to run (R180), and
while a sequence runs the sources are as the orchestrator left them (R160 to R163, R170). -/
abbrev State.ControlCoherent (s : State) : Prop :=
  (s.ctrl.init = false →
    s.ctrl.adcEn = false ∧ s.ctrl.tmrEn = false ∧ s.ctrl.rtcEn = false ∧ s.seq.state = .idle ∧ s.ph = []) ∧
  (s.seq.state = .gcalW →
    s.cfs.OneHot ∧ s.ctrl.rtcEn = true ∧ s.ctrl.tmrEn = false ∧ s.ctrl.adcEn = s.cfs.running ∧
    (s.cfs.finished = false → 1 ≤ s.cfs.rtcCnt)) ∧
  (s.seq.state ≠ .gcalW → s.cfs.start = false ∧ s.cfs.running = false ∧ s.cfs.finished = false) ∧
  (s.seq.state = .pcalW1 ∨ s.seq.state = .pcalW2 →
    s.seq.target < s.ph.length ∧ s.ctrl.adcEn = true ∧ s.ctrl.tmrEn = false) ∧
  (s.ctrl.init = true → 1 ≤ s.cfg.updateInterval) ∧
  (s.seq.state = .pcalW1 → 1 ≤ s.seq.savedUi)

/-- A slot in the angle sub-mode is the target of a phase calibration in its second stage (R32, R160, R170). -/
abbrev State.AngleOwned (s : State) : Prop :=
  ∀ k p, s.ph[k]? = some p → p.sig.calAngle = true → s.seq.state = .pcalW2 ∧ s.seq.target = k

/-- The ledger accumulators lie in `[0, meter_constant)` (R39, R191). -/
abbrev State.LedgerBounded (s : State) : Prop :=
  ∀ c : Category, s.num.le NumValue.zero (s.ledger.accOf c) = true ∧
    s.num.lt (s.ledger.accOf c) s.cfg.meterConstant = true

/-- One ADD of any published unit to any accumulator leaves it in `[0, meter_constant)`: what R191 asks of the numeric
structure. -/
abbrev State.AddsLand (s : State) : Prop :=
  ∀ c : Category, ∀ x ∈ [s.ledger.unit.act, s.ledger.unit.react, s.ledger.unit.app],
    s.num.le NumValue.zero (s.num.addResult s.cfg.meterConstant (s.ledger.accOf c) x) = true ∧
    s.num.lt (s.num.addResult s.cfg.meterConstant (s.ledger.accOf c) x) s.cfg.meterConstant = true

/-- Every published unit is smaller in magnitude than `meter_constant`, the premise of R191. -/
abbrev State.UnitsBounded (s : State) : Prop :=
  s.num.lt (s.num.abs s.ledger.unit.act) s.cfg.meterConstant = true ∧
  s.num.lt (s.num.abs s.ledger.unit.react) s.cfg.meterConstant = true ∧
  s.num.lt (s.num.abs s.ledger.unit.app) s.cfg.meterConstant = true

/-- The opcodes whose PH column in R84 is 0, of the host class. -/
def hostOpcodesWithoutPhase : List Nat := [0x20, 0x21, 0x22, 0x23, 0x24, 0x27, 0x28, 0x29, 0x32, 0x35, 0x36]

/-- A field the word's host command does not use is nonzero (R85 step 2; the columns PH and IMM of R84). -/
def reservedFieldSet (w : Word) : Bool :=
  (hostOpcodesWithoutPhase.contains (opField w) && phField w != 0) || (opField w != 0x26 && immField w != 0)

/-- What LED_DECAY makes of one LED (R187). -/
def agedLed (limit : Nat) (d : Led) : Led :=
  if d.on then (if limit < d.cnt + 1 then ⟨false, 0⟩ else ⟨true, d.cnt + 1⟩) else d

/-- The Off requests LED_DECAY emits for one LED (R187). -/
def decayRequests (limit : Nat) (l : LedId) (d : Led) : List Request :=
  if d.on then (if limit < d.cnt + 1 then [l.offRequest] else []) else []

/-- A slot of zeros with the given coefficients, signal flags and angle working state: what hard reset leaves of a
slot (R116), and ANGLE_ENTER after it (R150). -/
def Slot.blank (coef : Coef) (sig : Signals) (ang : Angle) : Slot where
  coef := coef
  zc := ⟨0, false, false, 0⟩
  live := ⟨0, 0, 0, 0, 0⟩
  snap := ⟨0, 0, 0, 0, 0⟩
  ws := ⟨0, 0, 0⟩
  sig := sig
  status := ⟨false, false, false, false, false⟩
  meas := ⟨NumValue.zero, NumValue.zero, NumValue.zero, NumValue.zero, NumValue.zero, NumValue.zero⟩
  eu := ⟨NumValue.zero, NumValue.zero, NumValue.zero⟩
  ang := ang

/-- The eight commands a running calibration refuses (R161). -/
def refusedWhileBusy : Instr → Bool
  | .init | .deinit | .start | .stop | .phaseRegister | .phaseLoadCal _ | .phaseCalibrate _ _
  | .globalCalibrate => true
  | .zcdDetect _ | .accReset _ | .accAccumulate _ | .accLoad _ | .phaseSample _ | .hardReset _
  | .measurePhase _ | .angleEnter _ | .angleSample _ | .ledDecay | .energyRoute | .seqStep | .evAdc
  | .evTmr | .evRtc | .energySet | .energyGet | .statusGet _ | .vrmsGet _ | .irmsGet _ | .flineGet _
  | .pGet _ | .qGet _ | .sGet _ | .measGet _ | .consGet | .measReady _ | .phaseCalGet _ | .seqStatus
  | .statGet => false

/-- The commands that only read state: every `*_GET`, SEQ_STATUS, STAT_GET (R68). -/
def readsOnly : Instr → Bool
  | .energyGet | .statusGet _ | .vrmsGet _ | .irmsGet _ | .flineGet _ | .pGet _ | .qGet _ | .sGet _
  | .measGet _ | .consGet | .phaseCalGet _ | .seqStatus | .statGet => true
  | .zcdDetect _ | .accReset _ | .accAccumulate _ | .accLoad _ | .phaseSample _ | .hardReset _
  | .measurePhase _ | .angleEnter _ | .angleSample _ | .ledDecay | .energyRoute | .seqStep | .evAdc
  | .evTmr | .evRtc | .init | .deinit | .start | .stop | .phaseRegister | .phaseLoadCal _
  | .phaseCalibrate _ _ | .globalCalibrate | .energySet | .measReady _ => false

/-- The commands whose only checks are that slot `k` is registered: they return `ERR_PHASE` or `OK` (R176, R209 to
R216, R218). -/
def slotCommands (k : Nat) : List Instr :=
  [.statusGet k, .vrmsGet k, .irmsGet k, .flineGet k, .pGet k, .qGet k, .sGet k, .measGet k, .measReady k,
    .phaseCalGet k]

end Sys2Proof.Machine
end

