-- ==== Sys2Proof/Certificates/Slice0/Obligations.lean ====
section
/-! DEFINITION. The statements about the model, for the provers. Each cites the rules of the spec it formalises. A next
state is written out in full, so every field it does not name is unchanged (the frame). -/

open Sys2Proof Sys2Proof.Machine

/-! ## Encoding -/

/-- R80, R84: the decoder reads back every well-formed operation from its word, with every operand. -/
def Obligations.DecodeOfEncodeIsTheOperation : Prop :=
  ∀ i : Instr, i.wellFormed = true → decode (encode i) = .ok i

/-- R80, R84, R86: a word that decodes is the word of the operation it decodes to, so no bit of it is ignored. -/
def Obligations.EncodeOfDecodeIsTheWord : Prop :=
  ∀ (w : Word) (i : Instr), decode w = .ok i → i.wellFormed = true ∧ encode i = w

/-- R89: the encoding examples, the two illegal words, and the words of the `Num` literals in the default codec. -/
def Obligations.EncodingExamples : Prop :=
  decode 0x20000000#32 = .ok .init ∧ decode 0x22000000#32 = .ok .start ∧
  decode 0x24000000#32 = .ok .phaseRegister ∧ decode 0x31000000#32 = .ok (.measGet 0) ∧
  decode 0x33020000#32 = .ok (.measReady 2) ∧ decode 0x26010019#32 = .ok (.phaseCalibrate 1 25) ∧
  decode 0x27000000#32 = .ok .globalCalibrate ∧
  (∀ s : State, issueCommand 0x20010000#32 s = .next { s with rc := .errReserved }) ∧
  (∀ s : State, issueCommand 0x10000000#32 s = .next { s with rc := .errOpcode }) ∧
  (let N := NumStructure.binary32;
    N.enc (N.ofInt 0) = 0x00000000#32 ∧ N.enc (N.ofInt 1) = 0x3F800000#32 ∧ N.enc (N.ofInt 2) = 0x40000000#32 ∧
    N.enc (N.ofInt 3) = 0x40400000#32 ∧ N.enc (N.div (N.ofInt 9) (N.ofInt 2)) = 0x40900000#32 ∧
    N.enc (N.ofInt 10) = 0x41200000#32 ∧ N.enc (N.ofInt 45) = 0x42340000#32 ∧ N.enc (N.ofInt 50) = 0x42480000#32 ∧
    N.enc (N.ofInt 55) = 0x425C0000#32 ∧ N.enc (N.ofInt 450) = 0x43E10000#32)

/-! ## The step and the host port -/

/-- R5, R65, R67: a step runs exactly the operation that the next stimulus delivers: the operation its word decodes to
(through `OPW` a host command only), or the event or sequencer step of its agent; nothing else changes than that the
stimulus is consumed (and, for the ADC, that its triples stand at the sample input). -/
def Obligations.StepRunsTheDeliveredOperation : Prop :=
  ∀ (s : State) (rest : List Stimulus),
    (∀ (w : Word) (i : Instr), s.inbox = .op w :: rest → decode w = .ok i →
      step s = exec i { s with inbox := rest }) ∧
    (∀ (w : Word) (i : Instr), s.inbox = .hostWrite s.par.hostBase 32 w :: rest → decode w = .ok i →
      i.opClass = .host → step s = exec i { s with inbox := rest }) ∧
    (∀ smp : List Triple, s.inbox = .adc smp :: rest →
      step s = exec .evAdc { s with inbox := rest, smp := smp }) ∧
    (s.inbox = .tmr :: rest → step s = exec .evTmr { s with inbox := rest }) ∧
    (s.inbox = .rtc :: rest → step s = exec .evRtc { s with inbox := rest }) ∧
    (s.inbox = .seq :: rest → step s = exec .seqStep { s with inbox := rest })

/-- R85: a host write of `OPW`, its three cases: a word outside the host opcodes, a nonzero unused field, and the
command itself. -/
def Obligations.HostWriteOfOpwDecodes : Prop :=
  ∀ (s : State) (rest : List Stimulus) (w : Word), s.inbox = .hostWrite s.par.hostBase 32 w :: rest →
    (opField w < 0x20 ∨ 0x36 < opField w →
      step s = .next { s with inbox := rest, rc := .errOpcode }) ∧
    (0x20 ≤ opField w ∧ opField w ≤ 0x36 → reservedFieldSet w = true →
      step s = .next { s with inbox := rest, rc := .errReserved }) ∧
    (0x20 ≤ opField w ∧ opField w ≤ 0x36 → reservedFieldSet w = false →
      ∃ i : Instr, i.opClass = .host ∧ i.opcode = opField w ∧ i.phase = phField w ∧ i.imm = immField w ∧
        step s = exec i { s with inbox := rest })

/-- R61: the register map of the host port. A read of each register returns its word and changes no register; a write
changes an operand register only, `OPW` apart (its writes run commands, see the statement above). -/
def Obligations.HostPortRegisterMap : Prop :=
  ∀ (s : State) (rest : List Stimulus) (off : Nat) (v : Word),
    (s.inbox = .hostRead (s.par.hostBase + off) 32 :: rest →
      (off = 0x000 → step s = .next { s with inbox := rest, rdata := 0#32 }) ∧
      (off = 0x004 → step s = .next { s with inbox := rest, rdata := BitVec.ofNat 32 s.rc.code }) ∧
      (∀ j : Fin 16, off = 0x040 + 4 * j.val → step s = .next { s with inbox := rest, rdata := s.A[j] }) ∧
      (∀ j : Fin 16, off = 0x080 + 4 * j.val → step s = .next { s with inbox := rest, rdata := s.R[j] }) ∧
      (off % 4 = 0 → (0x008 ≤ off ∧ off < 0x040) ∨ (0x0C0 ≤ off ∧ off < 0x100) →
        step s = .next { s with inbox := rest, rdata := 0#32 })) ∧
    (s.inbox = .hostWrite (s.par.hostBase + off) 32 v :: rest →
      (off = 0x000 → step s = issueCommand v { s with inbox := rest }) ∧
      (∀ j : Fin 16, off = 0x040 + 4 * j.val → step s = .next { s with inbox := rest, A := s.A.set j v }) ∧
      (off % 4 = 0 → (0x004 ≤ off ∧ off < 0x040) ∨ (0x080 ≤ off ∧ off < 0x100) →
        step s = .next { s with inbox := rest }))

/-- R63: a misaligned access, or one that is not 32 bits wide, changes no register and sets `fault.BUS`; such a read
returns 0. -/
def Obligations.InadmissibleAccessSetsBusFault : Prop :=
  ∀ (s : State) (rest : List Stimulus) (off width : Nat) (v : Word), off < 0x100 → off % 4 ≠ 0 ∨ width ≠ 32 →
    (s.inbox = .hostWrite (s.par.hostBase + off) width v :: rest →
      step s = .next { s with inbox := rest, fault := { s.fault with bus := true } }) ∧
    (s.inbox = .hostRead (s.par.hostBase + off) width :: rest →
      step s = .next { s with inbox := rest, fault := { s.fault with bus := true }, rdata := 0#32 })

/-- R60, R232, R236: no operation stops the block: from every state every operation answers a next state; and a step
stops on a host access outside the port's window (the model's choice, log entry 12) and on nothing else. -/
def Obligations.OnlyAccessOutsideWindowStops : Prop :=
  (∀ (i : Instr) (s : State), ∃ t : State, exec i s = .next t) ∧
  (∀ s : State, continues (step s) = false ↔
    ∃ (addr width : Nat) (rest : List Stimulus),
      ((∃ v : Word, s.inbox = .hostWrite addr width v :: rest) ∨ s.inbox = .hostRead addr width :: rest) ∧
      (addr < s.par.hostBase ∨ s.par.hostBase + 0x100 ≤ addr))

/-- R44: the values power-on reset leaves, from whatever state. R250 and R240: then no event is enabled and the SEQ
agent has no step. That such a step, if it is taken all the same, leaves the state as it is is the model's reading (log
entry 4), and that power-on reset is a step of its own is the model's form (log entry 17). -/
def Obligations.PowerOnResetClearsTheBlock : Prop :=
  ∀ (s : State) (rest : List Stimulus), s.inbox = .powerOn :: rest →
    ∃ t : State, step s = .next t ∧
      t.ctrl = ⟨false, false, false, false⟩ ∧ t.busy = false ∧ t.fault = ⟨false, false⟩ ∧ t.nPhases = 0 ∧
      t.cfg = ⟨0, ⟨0⟩, ⟨0⟩, ⟨0⟩, ⟨0⟩, ⟨0⟩, ⟨0⟩, 0, ⟨0⟩, ⟨0⟩, ⟨0⟩⟩ ∧
      t.ledger.unit = ⟨⟨0⟩, ⟨0⟩, ⟨0⟩⟩ ∧
      (∀ c : Category, t.ledger.accOf c = ⟨0⟩ ∧ t.ledger.lifeOf c = 0) ∧
      (∀ l : LedId, t.led.get l = ⟨false, 0⟩) ∧
      t.cfs = ⟨false, false, false, 0, 0, 0⟩ ∧ t.seq = ⟨.idle, 0, 0, ⟨0⟩, ⟨0⟩, 0, ⟨0⟩, ⟨0⟩, .ok⟩ ∧
      (∀ j : Fin 16, t.A[j] = 0#32 ∧ t.R[j] = 0#32) ∧ t.rc = .ok ∧ t.trace = [] ∧
      exec .evAdc t = .next t ∧ exec .evTmr t = .next t ∧ exec .evRtc t = .next t ∧ exec .seqStep t = .next t

/-! ## Stores and numbers -/

/-- R8: `store_N` keeps a value in range and delivers no fault; any other value is stored modulo `2^N`, read in the
field's range, with the fault. -/
def Obligations.StoreKeepsOrWraps : Prop :=
  (∀ (w : Nat) (v : Int), 0 ≤ v ∧ v < 2 ^ w → storeUnsigned w v = ⟨v.toNat, false⟩) ∧
  (∀ (w : Nat) (v : Int), v < 0 ∨ 2 ^ w ≤ v →
    (storeUnsigned w v).ovf = true ∧ (storeUnsigned w v).val < 2 ^ w ∧
    ((storeUnsigned w v).val : Int) % 2 ^ w = v % 2 ^ w) ∧
  (∀ (w : Nat) (v : Int), -(2 ^ w) ≤ v ∧ v < 2 ^ w → storeSigned (w + 1) v = ⟨v, false⟩) ∧
  (∀ (w : Nat) (v : Int), v < -(2 ^ w) ∨ 2 ^ w ≤ v →
    (storeSigned (w + 1) v).ovf = true ∧ -(2 ^ w) ≤ (storeSigned (w + 1) v).val ∧
    (storeSigned (w + 1) v).val < 2 ^ w ∧
    (storeSigned (w + 1) v).val % 2 ^ (w + 1) = v % 2 ^ (w + 1))

/-- R81 and log entry 7: the default `num_dec` rejects exactly the words whose exponent field is all ones, and
`num_enc` gives a decoded word back. -/
def Obligations.NumCodecRejectsNonFiniteWords : Prop :=
  (∀ w : Word, NumStructure.binary32.dec w = none ↔ (w.extractLsb' 23 8) = 0xFF#8) ∧
  (∀ (w : Word) (x : NumValue), NumStructure.binary32.dec w = some x → NumStructure.binary32.enc x = w)

/-! ## Zero-cross detector and accumulation -/

/-- R101: ZCD_DETECT of a registered slot, its four cases. -/
def Obligations.ZcdDetectUpdatesTracker : Prop :=
  ∀ (k : Nat) (s : State) (p : Slot), s.ph[k]? = some p →
    (p.zc.debounce = false ∧ p.zc.last ≤ 0 ∧ 0 < p.ws.v ∧ p.zc.synced = true ∧ p.zc.cyc + 1 < 2 ^ s.par.cycW →
      exec (.zcdDetect k) s =
        .next { s with ph := s.ph.set k { p with zc := ⟨p.ws.v, true, true, p.zc.cyc + 1⟩ } }) ∧
    (p.zc.debounce = false ∧ p.zc.last ≤ 0 ∧ 0 < p.ws.v ∧ p.zc.synced = true ∧ 2 ^ s.par.cycW ≤ p.zc.cyc + 1 →
      exec (.zcdDetect k) s =
        .next { s with
          ph := s.ph.set k { p with zc := ⟨p.ws.v, true, true, (p.zc.cyc + 1) % 2 ^ s.par.cycW⟩ }
          fault := { s.fault with ovf := true } }) ∧
    (p.zc.debounce = false ∧ p.zc.last ≤ 0 ∧ 0 < p.ws.v ∧ p.zc.synced = false →
      exec (.zcdDetect k) s = .next { s with ph := s.ph.set k { p with zc := ⟨p.ws.v, true, true, 0⟩ } }) ∧
    (p.zc.debounce = true ∨ 0 < p.zc.last ∨ p.ws.v ≤ 0 →
      exec (.zcdDetect k) s =
        .next { s with ph := s.ph.set k { p with zc := ⟨p.ws.v, false, p.zc.synced, p.zc.cyc⟩ } })

/-- R111, R113: ACC_RESET writes the current sample's products and a count of 1 to the live accumulators; ACC_LOAD
copies all five live fields to the snapshot. -/
def Obligations.AccResetAndAccLoad : Prop :=
  ∀ (k : Nat) (s : State) (p : Slot), s.ph[k]? = some p →
    exec (.accReset k) s =
      .next { s with
        ph := s.ph.set k
          { p with
            live := ⟨p.ws.v * p.ws.v, p.ws.i * p.ws.i, p.ws.v * p.ws.i, p.ws.v90 * p.ws.i, 1⟩ } } ∧
    exec (.accLoad k) s =
      .next { s with
        ph := s.ph.set k
          { p with snap := ⟨p.live.vacc, p.live.iacc, p.live.pacc, p.live.qacc, p.live.n⟩ } }

/-- R112: ACC_ACCUMULATE adds the current sample's products and 1; if every exact sum fits its width, the sums are
stored; if one does not, `fault.OVF` is set and each field is stored by R8. -/
def Obligations.AccAccumulateAddsCurrentSample : Prop :=
  ∀ (k : Nat) (s : State) (p : Slot), s.ph[k]? = some p →
    (fitsSigned s.par.accW (p.live.vacc + p.ws.v * p.ws.v) = true ∧
      fitsSigned s.par.accW (p.live.iacc + p.ws.i * p.ws.i) = true ∧
      fitsSigned s.par.accW (p.live.pacc + p.ws.v * p.ws.i) = true ∧
      fitsSigned s.par.accW (p.live.qacc + p.ws.v90 * p.ws.i) = true ∧ p.live.n + 1 < 2 ^ s.par.cntW →
      exec (.accAccumulate k) s =
        .next { s with
          ph := s.ph.set k
            { p with
              live :=
                ⟨p.live.vacc + p.ws.v * p.ws.v, p.live.iacc + p.ws.i * p.ws.i, p.live.pacc + p.ws.v * p.ws.i,
                  p.live.qacc + p.ws.v90 * p.ws.i, p.live.n + 1⟩ } }) ∧
    (fitsSigned s.par.accW (p.live.vacc + p.ws.v * p.ws.v) = false ∨
      fitsSigned s.par.accW (p.live.iacc + p.ws.i * p.ws.i) = false ∨
      fitsSigned s.par.accW (p.live.pacc + p.ws.v * p.ws.i) = false ∨
      fitsSigned s.par.accW (p.live.qacc + p.ws.v90 * p.ws.i) = false ∨ 2 ^ s.par.cntW ≤ p.live.n + 1 →
      exec (.accAccumulate k) s =
        .next { s with
          ph := s.ph.set k
            { p with
              live :=
                ⟨(storeSigned s.par.accW (p.live.vacc + p.ws.v * p.ws.v)).val,
                  (storeSigned s.par.accW (p.live.iacc + p.ws.i * p.ws.i)).val,
                  (storeSigned s.par.accW (p.live.pacc + p.ws.v * p.ws.i)).val,
                  (storeSigned s.par.accW (p.live.qacc + p.ws.v90 * p.ws.i)).val,
                  (storeUnsigned s.par.cntW ((p.live.n : Int) + 1)).val⟩ }
          fault := { s.fault with ovf := true } })

/-- R114, R118: PHASE_SAMPLE is ZCD_DETECT, then, once synchronised, ACC_ACCUMULATE, then, once the cycle counter has
reached `update_interval`, ACC_LOAD, the ready flag (set whether or not it was), ACC_RESET and a cycle counter of 0. -/
def Obligations.PhaseSampleComposesItsMicroOperations : Prop :=
  ∀ (k : Nat) (s : State) (p : Slot), s.ph[k]? = some p → p.sig.calAngle = false →
    ∃ (t1 : State) (p1 : Slot), exec (.zcdDetect k) s = .next t1 ∧ t1.ph[k]? = some p1 ∧
      (p1.zc.synced = false → exec (.phaseSample k) s = .next t1) ∧
      (p1.zc.synced = true →
        ∃ (t2 : State) (p2 : Slot), exec (.accAccumulate k) t1 = .next t2 ∧ t2.ph[k]? = some p2 ∧
          (p2.zc.cyc < s.cfg.updateInterval → exec (.phaseSample k) s = .next t2) ∧
          (s.cfg.updateInterval ≤ p2.zc.cyc →
            ∃ (t3 t4 : State) (p3 p4 : Slot), exec (.accLoad k) t2 = .next t3 ∧ t3.ph[k]? = some p3 ∧
              exec (.accReset k) { t3 with ph := t3.ph.set k { p3 with sig := { p3.sig with accReady := true } } } =
                .next t4 ∧ t4.ph[k]? = some p4 ∧
              exec (.phaseSample k) s =
                .next { t4 with ph := t4.ph.set k { p4 with zc := { p4.zc with cyc := 0 } } }))

/-- R116: HARD_RESET clears every record of the slot but the coefficients and the angle working state, and touches no
other slot. -/
def Obligations.HardResetClearsAllButCalibration : Prop :=
  ∀ (k : Nat) (s : State) (p : Slot), s.ph[k]? = some p →
    exec (.hardReset k) s =
      .next { s with ph := s.ph.set k (Slot.blank p.coef ⟨false, false, false⟩ p.ang) }

/-! ## Measurement -/

/-- R130, R131, R135: a ready slot whose line frequency is outside the closed band has its outputs zeroed, its status
kept, and its measurements marked ready. -/
def Obligations.InvalidWindowZeroesOutputs : Prop :=
  ∀ (k : Nat) (s : State) (p : Slot), s.ph[k]? = some p → p.sig.accReady = true →
    s.num.lt (s.num.div s.cfg.flineCoeff (s.num.ofInt p.snap.n)) s.cfg.flineTolLow = true ∨
      s.num.lt s.cfg.flineTolHigh (s.num.div s.cfg.flineCoeff (s.num.ofInt p.snap.n)) = true →
    exec (.measurePhase k) s =
      .next { s with
        ph := s.ph.set k
          { p with
            sig := { p.sig with accReady := false, measReady := true }
            meas := ⟨NumValue.zero, NumValue.zero, NumValue.zero, NumValue.zero, NumValue.zero, NumValue.zero⟩
            eu := ⟨NumValue.zero, NumValue.zero, NumValue.zero⟩ } }

/-- R130, R132, R133, R134, R135: a ready slot whose line frequency is in the closed band is measured: the formulas of
the measurements, the status bits, and the energy units. -/
def Obligations.ValidWindowIsMeasured : Prop :=
  ∀ (k : Nat) (s : State) (p : Slot) (n fl vrms irms pw qw sw : NumValue),
    s.ph[k]? = some p → p.sig.accReady = true →
    n = s.num.ofInt p.snap.n → fl = s.num.div s.cfg.flineCoeff n →
    s.num.lt fl s.cfg.flineTolLow = false → s.num.lt s.cfg.flineTolHigh fl = false →
    vrms = s.num.div (s.num.sqrt (s.num.div (s.num.ofInt p.snap.vacc) n)) p.coef.vrmsCoeff →
    irms = s.num.div (s.num.sqrt (s.num.div (s.num.ofInt p.snap.iacc) n)) p.coef.irmsCoeff →
    pw = s.num.div (s.num.ofInt p.snap.pacc) (s.num.mul n p.coef.pCoeff) →
    qw = s.num.div (s.num.ofInt p.snap.qacc) (s.num.mul n p.coef.pCoeff) →
    sw = s.num.div (s.num.sqrt (s.num.mul (s.num.ofInt p.snap.iacc) (s.num.ofInt p.snap.vacc)))
      (s.num.mul n p.coef.pCoeff) →
    exec (.measurePhase k) s =
      .next { s with
        ph := s.ph.set k
          { p with
            sig := { p.sig with accReady := false, measReady := true }
            meas :=
              ⟨vrms, irms, fl,
                if s.num.lt (s.num.abs pw) s.cfg.noLoadP then NumValue.zero else pw,
                if s.num.lt (s.num.abs qw) s.cfg.noLoadP then NumValue.zero else qw,
                if s.num.lt (s.num.abs sw) s.cfg.noLoadP then NumValue.zero else sw⟩
            status :=
              ⟨s.num.lt (s.num.abs pw) s.cfg.noLoadP, s.num.lt (s.num.abs qw) s.cfg.noLoadP,
                s.num.lt (s.num.abs sw) s.cfg.noLoadP, s.num.lt vrms s.cfg.sagThreshold,
                !s.num.lt vrms s.cfg.sagThreshold && s.num.lt s.cfg.swellThreshold vrms⟩
            eu :=
              ⟨if s.num.lt (s.num.abs pw) s.cfg.noLoadP then NumValue.zero else s.num.div pw s.cfg.fs,
                if s.num.lt (s.num.abs qw) s.cfg.noLoadP then NumValue.zero else s.num.div qw s.cfg.fs,
                if s.num.lt (s.num.abs sw) s.cfg.noLoadP then NumValue.zero else s.num.div sw s.cfg.fs⟩ } }

/-- R140, R141: an enabled EV_TMR measures each ready slot as MEASURE_PHASE does, leaves every other slot, and
publishes the totals of all slots' energy units, summed from zero in registration order. -/
def Obligations.TimerMeasuresReadySlotsAndPublishes : Prop :=
  ∀ s : State, s.ctrl.tmrEn = true →
    ∃ ph : List Slot, ph.length = s.ph.length ∧
      (∀ (k : Nat) (p : Slot), s.ph[k]? = some p → p.sig.accReady = false → ph[k]? = some p) ∧
      (∀ (k : Nat) (p : Slot), s.ph[k]? = some p → p.sig.accReady = true →
        ∃ u : State, exec (.measurePhase k) s = .next u ∧ ph[k]? = u.ph[k]?) ∧
      exec .evTmr s =
        .next { s with
          ph := ph
          ledger :=
            { s.ledger with
              unit :=
                ⟨(ph.map fun p => p.eu.act).foldl s.num.add NumValue.zero,
                  (ph.map fun p => p.eu.react).foldl s.num.add NumValue.zero,
                  (ph.map fun p => p.eu.app).foldl s.num.add NumValue.zero⟩ } }

/-! ## Phase-angle calibration -/

/-- R150: ANGLE_ENTER primes the angle working state and sets `cal_angle`. -/
def Obligations.AngleEnterPrimesTheSubMode : Prop :=
  ∀ (k : Nat) (s : State) (p : Slot), s.ph[k]? = some p →
    exec (.angleEnter k) s =
      .next { s with
        ph := s.ph.set k
          { p with
            ang := ⟨1, 1, NumValue.zero, NumValue.zero, 0, .none⟩
            sig := { p.sig with calAngle := true } } }

/-- R151, R152: ANGLE_SAMPLE of a slot in the sub-mode: both signals cross without completing, both cross and the
counter exceeds `update_interval`, both cross and the counter overflows (R8), exactly one crosses, none crosses. -/
def Obligations.AngleSampleAveragesCrossings : Prop :=
  ∀ (k : Nat) (s : State) (p : Slot) (fv fi : NumValue), s.ph[k]? = some p → p.sig.calAngle = true →
    fv = (if p.ang.lastV = 0 then NumValue.zero
      else s.num.div (s.num.ofInt p.ws.v) (s.num.ofInt (p.ws.v - p.ang.lastV))) →
    fi = (if p.ang.lastI = 0 then NumValue.zero
      else s.num.div (s.num.ofInt p.ws.i) (s.num.ofInt (p.ws.i - p.ang.lastI))) →
    ((p.ang.lastV ≤ 0 ∧ 0 < p.ws.v) ∧ (p.ang.lastI ≤ 0 ∧ 0 < p.ws.i) ∧ p.ang.cnt + 1 < 2 ^ 32 ∧
        p.ang.cnt + 1 ≤ s.cfg.updateInterval →
      exec (.angleSample k) s =
        .next { s with
          ph := s.ph.set k
            { p with
              ang :=
                ⟨p.ws.v, p.ws.i, s.num.add p.ang.vFrac fv, s.num.add p.ang.iFrac fi, p.ang.cnt + 1,
                  p.ang.status⟩ } }) ∧
    ((p.ang.lastV ≤ 0 ∧ 0 < p.ws.v) ∧ (p.ang.lastI ≤ 0 ∧ 0 < p.ws.i) ∧ p.ang.cnt + 1 < 2 ^ 32 ∧
        s.cfg.updateInterval < p.ang.cnt + 1 →
      exec (.angleSample k) s =
        .next { s with
          ph := s.ph.set k
            { p with
              ang :=
                ⟨p.ws.v, p.ws.i, s.num.add p.ang.vFrac fv, s.num.add p.ang.iFrac fi, p.ang.cnt + 1, .ok⟩
              sig := { p.sig with calAngle := false } } }) ∧
    ((p.ang.lastV ≤ 0 ∧ 0 < p.ws.v) ∧ (p.ang.lastI ≤ 0 ∧ 0 < p.ws.i) ∧ p.ang.cnt + 1 = 2 ^ 32 →
      exec (.angleSample k) s =
        .next { s with
          ph := s.ph.set k
            { p with
              ang :=
                ⟨p.ws.v, p.ws.i, s.num.add p.ang.vFrac fv, s.num.add p.ang.iFrac fi, 0, p.ang.status⟩ }
          fault := { s.fault with ovf := true } }) ∧
    (((p.ang.lastV ≤ 0 ∧ 0 < p.ws.v) ∧ ¬(p.ang.lastI ≤ 0 ∧ 0 < p.ws.i)) ∨
        (¬(p.ang.lastV ≤ 0 ∧ 0 < p.ws.v) ∧ (p.ang.lastI ≤ 0 ∧ 0 < p.ws.i)) →
      exec (.angleSample k) s =
        .next { s with
          ph := s.ph.set k
            { p with
              ang := ⟨p.ws.v, p.ws.i, p.ang.vFrac, p.ang.iFrac, p.ang.cnt, .phaseAngleError⟩ } }) ∧
    (¬(p.ang.lastV ≤ 0 ∧ 0 < p.ws.v) ∧ ¬(p.ang.lastI ≤ 0 ∧ 0 < p.ws.i) →
      exec (.angleSample k) s =
        .next { s with
          ph := s.ph.set k
            { p with
              ang := ⟨p.ws.v, p.ws.i, p.ang.vFrac, p.ang.iFrac, p.ang.cnt, p.ang.status⟩ } })

/-! ## Energy ledger, LEDs and the ADC step -/

/-- R187: LED_DECAY ages the LEDs that are on, turns off those past `led_on_count`, and emits the Off requests in the
order active, reactive, apparent. -/
def Obligations.LedDecayAgesTheLeds : Prop :=
  ∀ s : State, s.led.act.cnt + 1 < 2 ^ 32 → s.led.react.cnt + 1 < 2 ^ 32 → s.led.app.cnt + 1 < 2 ^ 32 →
    exec .ledDecay s =
      .next { s with
        led :=
          ⟨agedLed s.cfg.ledOnCount s.led.act, agedLed s.cfg.ledOnCount s.led.react,
            agedLed s.cfg.ledOnCount s.led.app⟩
        trace :=
          s.trace ++ decayRequests s.cfg.ledOnCount .act s.led.act ++
            decayRequests s.cfg.ledOnCount .react s.led.react ++
            decayRequests s.cfg.ledOnCount .app s.led.app }

/-- R185, R186, R188: ADD adds the magnitude; at `meter_constant` it subtracts the constant once, counts the pulse
modulo `2^LIFE_W` and retriggers the category's LED, with its On request. -/
def Obligations.AddEnergyRollsOverOnce : Prop :=
  ∀ (c : Category) (x : NumValue) (s : State) (l : LedId),
    l = (match c with
      | .actImp => .act
      | .actExp => .act
      | .appImp => .app
      | .appExp => if s.par.appExpLedQuirk then .act else .app
      | .lReactImp => .react
      | .cReactImp => .react
      | .lReactExp => .react
      | .cReactExp => .react) →
    (s.num.le s.cfg.meterConstant (s.num.add (s.ledger.accOf c) (s.num.abs x)) = true →
      s.addEnergy c x =
        { s with
          ledger :=
            { s.ledger with
              acc := s.ledger.acc.set c.index
                (s.num.sub (s.num.add (s.ledger.accOf c) (s.num.abs x)) s.cfg.meterConstant)
              life := s.ledger.life.set c.index ((s.ledger.lifeOf c + 1) % 2 ^ s.par.lifeW) }
          led := s.led.put l ⟨true, 0⟩
          trace := s.trace ++ [l.onRequest] }) ∧
    (s.num.le s.cfg.meterConstant (s.num.add (s.ledger.accOf c) (s.num.abs x)) = false →
      s.addEnergy c x =
        { s with
          ledger :=
            { s.ledger with
              acc := s.ledger.acc.set c.index (s.num.add (s.ledger.accOf c) (s.num.abs x)) } })

/-- R189: ENERGY_ROUTE makes three ADDs, in the order active, apparent, reactive, to the categories of the quadrant. -/
def Obligations.EnergyRouteFollowsTheQuadrant : Prop :=
  ∀ (s : State) (u : EnergyUnits), u = s.ledger.unit →
    (s.num.le NumValue.zero u.act = true → s.num.le NumValue.zero u.react = true →
      exec .energyRoute s =
        .next (((s.addEnergy .actImp u.act).addEnergy .appImp u.app).addEnergy .lReactImp u.react)) ∧
    (s.num.le NumValue.zero u.act = true → s.num.le NumValue.zero u.react = false →
      exec .energyRoute s =
        .next (((s.addEnergy .actImp u.act).addEnergy .appImp u.app).addEnergy .cReactExp u.react)) ∧
    (s.num.le NumValue.zero u.act = false → s.num.le NumValue.zero u.react = true →
      exec .energyRoute s =
        .next (((s.addEnergy .actExp u.act).addEnergy .appExp u.app).addEnergy .cReactImp u.react)) ∧
    (s.num.le NumValue.zero u.act = false → s.num.le NumValue.zero u.react = false →
      exec .energyRoute s =
        .next (((s.addEnergy .actExp u.act).addEnergy .appExp u.app).addEnergy .lReactExp u.react))

/-- R191 (a): if every accumulator lies in `[0, meter_constant)`, every one lies there after an EV_ADC: in binary32,
with its roundings, if every published unit is smaller in magnitude than `meter_constant` (at most 2^126, so that the
sums stay finite; log entries 6 and 7); in every numeric structure, if one ADD of those units lands there. -/
def Obligations.LedgerStaysBelowMeterConstant : Prop :=
  (∀ s t : State, s.par.num = .binary32 → s.num.le s.cfg.meterConstant ⟨0x7E800000⟩ = true →
    s.LedgerBounded → s.UnitsBounded → exec .evAdc s = .next t → t.LedgerBounded) ∧
  (∀ s t : State, s.LedgerBounded → s.AddsLand → exec .evAdc s = .next t → t.LedgerBounded)

/-- R181, R182, R190: during the fs-calibration window an enabled EV_ADC counts the sample and does nothing else, but
that a counter past its width wraps and sets `fault.OVF` (R8). -/
def Obligations.AdcOnlyCountsDuringWindow : Prop :=
  ∀ s : State, s.adcEnabled = true → s.cfs.running = true →
    (s.cfs.adcCnt + 1 < 2 ^ 32 →
      exec .evAdc s = .next { s with cfs := { s.cfs with adcCnt := s.cfs.adcCnt + 1 } }) ∧
    (s.cfs.adcCnt + 1 = 2 ^ 32 →
      exec .evAdc s =
        .next { s with cfs := { s.cfs with adcCnt := 0 }, fault := { s.fault with ovf := true } })

/-- R110, R190: an enabled EV_ADC outside the window gives each slot its triple and runs ANGLE_SAMPLE on a slot in the
sub-mode and PHASE_SAMPLE on another; if a slot was in the sub-mode nothing else changes, otherwise LED_DECAY and then
ENERGY_ROUTE follow. -/
def Obligations.AdcProcessesPhasesThenEnergy : Prop :=
  ∀ s : State, s.adcEnabled = true → s.cfs.running = false →
    ∃ (ph : List Slot) (ovf : Bool), ph.length = s.ph.length ∧
      (∀ (k : Nat) (p : Slot) (tr : Triple), s.ph[k]? = some p → s.smp[k]? = some tr →
        ∃ u : State,
          exec (if p.sig.calAngle then .angleSample k else .phaseSample k)
            { s with ph := s.ph.set k { p with ws := tr }, fault := ⟨false, false⟩ } = .next u ∧
          ph[k]? = u.ph[k]? ∧ (u.fault.ovf = true → ovf = true)) ∧
      (ovf = true →
        ∃ (k : Nat) (p : Slot) (tr : Triple) (u : State), s.ph[k]? = some p ∧ s.smp[k]? = some tr ∧
          exec (if p.sig.calAngle then .angleSample k else .phaseSample k)
            { s with ph := s.ph.set k { p with ws := tr }, fault := ⟨false, false⟩ } = .next u ∧
          u.fault.ovf = true) ∧
      ((∃ p ∈ s.ph, p.sig.calAngle = true) →
        exec .evAdc s = .next { s with ph := ph, fault := { s.fault with ovf := s.fault.ovf || ovf } }) ∧
      ((∀ p ∈ s.ph, p.sig.calAngle = false) →
        ∃ d t : State,
          exec .ledDecay { s with ph := ph, fault := { s.fault with ovf := s.fault.ovf || ovf } } = .next d ∧
          exec .energyRoute d = .next t ∧ exec .evAdc s = .next t)

/-! ## Calibration -/

/-- R180: EV_RTC while enabled: the arming tick, a counted tick, the tick that ends the window, and no effect outside
the window. -/
def Obligations.RtcGatesTheWindow : Prop :=
  ∀ s : State, s.ctrl.rtcEn = true →
    (s.cfs.start = true →
      exec .evRtc s =
        .next { s with
          cfs := { s.cfs with start := false, running := true }
          ctrl := { s.ctrl with adcEn := true }
          trace := s.trace ++ [.adcStart] }) ∧
    (s.cfs.start = false → s.cfs.running = true → 2 ≤ s.cfs.rtcCnt → s.cfs.rtcCnt ≤ 2 ^ 32 →
      exec .evRtc s = .next { s with cfs := { s.cfs with rtcCnt := s.cfs.rtcCnt - 1 } }) ∧
    (s.cfs.start = false → s.cfs.running = true → s.cfs.rtcCnt = 1 →
      exec .evRtc s =
        .next { s with
          cfs := { s.cfs with rtcCnt := 0, running := false, finished := true }
          ctrl := { s.ctrl with adcEn := false }
          trace := s.trace ++ [.adcStop] }) ∧
    (s.cfs.start = false → s.cfs.running = false → exec .evRtc s = .next s)

/-- R160, R170, R240, and the model's reading of them in log entries 4 and 10: a step that is not enabled does not
happen. An event whose run-enable bit is 0; an ADC step whose sample input is not one triple in range for each slot;
SEQ_STEP before its flag; a micro-operation on an unregistered slot or on a slot in the wrong mode. -/
def Obligations.DisabledOperationsDoNothing : Prop :=
  ∀ s : State,
    (s.ctrl.adcEn = false → exec .evAdc s = .next s) ∧
    (s.smp.length ≠ s.ph.length → exec .evAdc s = .next s) ∧
    ((∃ tr ∈ s.smp, ¬ tr.Fits s.par.sampleW) → exec .evAdc s = .next s) ∧
    (s.ctrl.tmrEn = false → exec .evTmr s = .next s) ∧
    (s.ctrl.rtcEn = false → exec .evRtc s = .next s) ∧
    (s.seq.state = .idle → exec .seqStep s = .next s) ∧
    (∀ p : Slot, s.seq.state = .pcalW1 → s.ph[s.seq.target]? = some p → p.sig.accReady = false →
      exec .seqStep s = .next s) ∧
    (∀ p : Slot, s.seq.state = .pcalW2 → s.ph[s.seq.target]? = some p → p.sig.calAngle = true →
      exec .seqStep s = .next s) ∧
    (s.seq.state = .gcalW → s.cfs.finished = false → exec .seqStep s = .next s) ∧
    (∀ k : Nat, s.nPhases ≤ k →
      ∀ i ∈ [Instr.zcdDetect k, .accReset k, .accAccumulate k, .accLoad k, .phaseSample k, .hardReset k,
        .measurePhase k, .angleEnter k, .angleSample k], exec i s = .next s) ∧
    (∀ (k : Nat) (p : Slot), s.ph[k]? = some p →
      (p.sig.calAngle = true → exec (.phaseSample k) s = .next s) ∧
      (p.sig.calAngle = false → exec (.angleSample k) s = .next s) ∧
      (p.sig.accReady = false → exec (.measurePhase k) s = .next s))

/-- R162: PHASE_CALIBRATE that passes its checks: the sources quiesced, the interval overridden, the target hard-reset,
the ADC started, the sequencer in `PCAL_W1`. -/
def Obligations.PhaseCalibrateStartsTheSequence : Prop :=
  ∀ (k lc : Nat) (s : State) (p : Slot) (vt it : NumValue),
    s.busy = false → s.ctrl.init = true → s.ph[k]? = some p → lc ≠ 0 →
    s.num.dec s.A[0] = some vt → s.num.dec s.A[1] = some it →
    s.num.lt NumValue.zero vt = true → s.num.lt NumValue.zero it = true →
    exec (.phaseCalibrate k lc) s =
      .next { s with
        rc := .ok
        ctrl := { s.ctrl with adcEn := true, tmrEn := false }
        trace := s.trace ++ [.adcStop, .tmrStop, .adcStart]
        cfg := { s.cfg with updateInterval := lc }
        seq :=
          { s.seq with
            state := .pcalW1
            target := k
            savedUi := s.cfg.updateInterval
            vrmsTgt := vt
            irmsTgt := it }
        ph := s.ph.set k (Slot.blank p.coef ⟨false, false, false⟩ p.ang) }

/-- R163: GLOBAL_CALIBRATE that passes its checks: ADC and timer stopped, the RTC started if it was stopped, `cfs`
armed, the sequencer in `GCAL_W`. -/
def Obligations.GlobalCalibrateArmsTheWindow : Prop :=
  ∀ (s : State) (rp ft : NumValue),
    s.busy = false → s.ctrl.init = true → s.A[0] ≠ 0#32 →
    s.num.dec s.A[1] = some rp → s.num.dec s.A[2] = some ft →
    s.num.lt NumValue.zero rp = true → s.num.lt NumValue.zero ft = true →
    exec .globalCalibrate s =
      .next { s with
        rc := .ok
        ctrl := { s.ctrl with adcEn := false, tmrEn := false, rtcEn := true }
        trace := s.trace ++ [.adcStop, .tmrStop] ++ (if s.ctrl.rtcEn then [] else [.rtcStart])
        seq := { s.seq with state := .gcalW, rtcCycles := s.A[0].toNat, rtcPeriod := rp, flineTarget := ft }
        cfs := ⟨true, false, false, s.A[0].toNat, 0, 0⟩ }

/-- R171: SEQ_STEP in `PCAL_W1` on a ready target: with usable coefficients it stores them and enters the angle
sub-mode; otherwise the sequence ends with `ERR_CAL`, the coefficients unchanged. -/
def Obligations.SeqStepComputesCoefficients : Prop :=
  ∀ (s : State) (p : Slot) (vc ic : NumValue),
    s.seq.state = .pcalW1 → s.ph[s.seq.target]? = some p → p.sig.accReady = true →
    vc = s.num.div (s.num.sqrt (s.num.div (s.num.ofInt p.snap.vacc) (s.num.ofInt p.snap.n))) s.seq.vrmsTgt →
    ic = s.num.div (s.num.sqrt (s.num.div (s.num.ofInt p.snap.iacc) (s.num.ofInt p.snap.n))) s.seq.irmsTgt →
    (s.num.lt NumValue.zero vc = true ∧ s.num.lt NumValue.zero ic = true ∧
        s.num.lt NumValue.zero (s.num.mul vc ic) = true →
      exec .seqStep s =
        .next { s with
          ctrl := { s.ctrl with adcEn := true }
          trace := s.trace ++ [.adcStop, .adcStart]
          cfg := { s.cfg with updateInterval := s.seq.savedUi }
          ph := s.ph.set s.seq.target
            (Slot.blank ⟨vc, ic, s.num.mul vc ic, p.coef.viPhaseCorrection⟩ ⟨false, false, true⟩
              ⟨1, 1, NumValue.zero, NumValue.zero, 0, .none⟩)
          seq := { s.seq with state := .pcalW2 } }) ∧
    (s.num.lt NumValue.zero vc = false ∨ s.num.lt NumValue.zero ic = false ∨
        s.num.lt NumValue.zero (s.num.mul vc ic) = false →
      exec .seqStep s =
        .next { s with
          ctrl := { s.ctrl with adcEn := true, tmrEn := true }
          trace := s.trace ++ [.adcStop, .adcStart, .tmrStart]
          cfg := { s.cfg with updateInterval := s.seq.savedUi }
          ph := s.ph.set s.seq.target (Slot.blank p.coef ⟨false, false, false⟩ p.ang)
          seq := { s.seq with state := .idle, result := .errCal } })

/-- R172: SEQ_STEP in `PCAL_W2` once the target has left the sub-mode: the phase correction, the hard reset, the
restart of ADC and timer, the result `OK`. -/
def Obligations.SeqStepComputesPhaseCorrection : Prop :=
  ∀ (s : State) (p : Slot),
    s.seq.state = .pcalW2 → s.ph[s.seq.target]? = some p → p.sig.calAngle = false →
    exec .seqStep s =
      .next { s with
        ctrl := { s.ctrl with adcEn := true, tmrEn := true }
        trace := s.trace ++ [.adcStop, .adcStart, .tmrStart]
        ph := s.ph.set s.seq.target
          (Slot.blank
            { p.coef with
              viPhaseCorrection :=
                s.num.mul
                  (s.num.sub (s.num.div p.ang.iFrac (s.num.ofInt p.ang.cnt))
                    (s.num.div p.ang.vFrac (s.num.ofInt p.ang.cnt)))
                  s.cfg.degPerSample }
            ⟨false, false, false⟩ p.ang)
        seq := { s.seq with state := .idle, result := .ok } }

/-- R173: SEQ_STEP in `GCAL_W` once the window is finished: the sampling frequency and the two coefficients derived
from it, or `ERR_CAL` with `cfg` unchanged if no sample was counted. -/
def Obligations.SeqStepComputesSamplingFrequency : Prop :=
  ∀ (s : State) (fs : NumValue),
    s.seq.state = .gcalW → s.cfs.finished = true →
    fs = s.num.div (s.num.ofInt s.cfs.adcCnt) (s.num.mul s.seq.rtcPeriod (s.num.ofInt s.seq.rtcCycles)) →
    (s.cfs.adcCnt ≠ 0 →
      exec .seqStep s =
        .next { s with
          ctrl := { s.ctrl with adcEn := true, tmrEn := true }
          trace := s.trace ++ [.adcStart, .tmrStart]
          cfg :=
            { s.cfg with
              fs := fs
              flineCoeff := s.num.mul fs (s.num.ofInt s.cfg.updateInterval)
              degPerSample := s.num.div (s.num.mul s.num.threeSixty s.seq.flineTarget) fs }
          cfs := { s.cfs with finished := false }
          seq := { s.seq with state := .idle, result := .ok } }) ∧
    (s.cfs.adcCnt = 0 →
      exec .seqStep s =
        .next { s with
          ctrl := { s.ctrl with adcEn := true, tmrEn := true }
          trace := s.trace ++ [.adcStart, .tmrStart]
          cfs := { s.cfs with finished := false }
          seq := { s.seq with state := .idle, result := .errCal } })

/-- R161, R174: while a sequence runs, no operation but SEQ_STEP moves the sequencer: there is no timeout and no
cancellation. -/
def Obligations.OnlySeqStepMovesARunningSequence : Prop :=
  ∀ (i : Instr) (s t : State), s.busy = true → i ≠ .seqStep → exec i s = .next t →
    t.seq = s.seq ∧ t.cfg.updateInterval = s.cfg.updateInterval ∧ t.nPhases = s.nPhases

/-! ## Host commands -/

/-- R161: while a sequence runs, eight commands return `ERR_BUSY` and change nothing else; no other command does. -/
def Obligations.BusyRefusesEightCommands : Prop :=
  ∀ (i : Instr) (s : State), s.busy = true →
    (refusedWhileBusy i = true → exec i s = .next { s with rc := .errBusy }) ∧
    (i.opClass = .host → refusedWhileBusy i = false → ∃ t : State, exec i s = .next t ∧ t.rc ≠ .errBusy)

/-- R162, R163, R176, R201, R203, R205 to R207, R209 to R218, R231: a command that the control state does not allow
returns `ERR_STATE`, one that names an unregistered slot `ERR_PHASE`, once the earlier checks pass; nothing else
changes. -/
def Obligations.WrongStateOrSlotIsRefused : Prop :=
  ∀ s : State,
    (s.busy = false → s.ctrl.adcEn = true ∨ s.ctrl.tmrEn = true →
      exec .init s = .next { s with rc := .errState }) ∧
    (s.busy = false → s.ctrl.init = false ∨ s.ctrl.adcEn = true ∨ s.ctrl.tmrEn = true →
      exec .phaseRegister s = .next { s with rc := .errState }) ∧
    (s.busy = false → s.ctrl.init = false →
      exec .start s = .next { s with rc := .errState } ∧
      (∀ k lc : Nat, exec (.phaseCalibrate k lc) s = .next { s with rc := .errState }) ∧
      exec .globalCalibrate s = .next { s with rc := .errState }) ∧
    (s.ctrl.init = false →
      exec .energySet s = .next { s with rc := .errState } ∧
      exec .consGet s = .next { s with rc := .errState }) ∧
    (∀ k : Nat, s.nPhases ≤ k →
      (∀ i ∈ slotCommands k, exec i s = .next { s with rc := .errPhase }) ∧
      (s.busy = false → exec (.phaseLoadCal k) s = .next { s with rc := .errPhase }) ∧
      (∀ lc : Nat, s.busy = false → s.ctrl.init = true →
        exec (.phaseCalibrate k lc) s = .next { s with rc := .errPhase }))

/-- R81, R162, R163, R201, R206, R207, R231: an illegal operand gives `ERR_ARG` once the earlier checks pass, and
nothing else changes. -/
def Obligations.IllegalOperandIsRefused : Prop :=
  ∀ s : State,
    (s.busy = false → s.ctrl.adcEn = false → s.ctrl.tmrEn = false →
      s.A[0] = 0#32 ∨ 65535 < s.A[0].toNat ∨ s.A[7] = 0xFFFFFFFF#32 ∨
        s.num.dec s.A[1] = none ∨ s.num.dec s.A[2] = none ∨ s.num.dec s.A[5] = none ∨
        s.num.dec s.A[6] = none ∨ s.num.dec s.A[9] = none ∨ s.num.dec s.A[10] = none ∨
        (∀ x, s.num.dec s.A[3] = some x → s.num.lt NumValue.zero x = false) ∨
        (∀ x, s.num.dec s.A[4] = some x → s.num.le NumValue.zero x = false) ∨
        (∀ x, s.num.dec s.A[8] = some x → s.num.lt NumValue.zero x = false) →
      exec .init s = .next { s with rc := .errArg }) ∧
    (∀ k : Nat, s.busy = false → k < s.nPhases →
      s.num.dec s.A[3] = none ∨
        (∀ x, s.num.dec s.A[0] = some x → s.num.lt NumValue.zero x = false) ∨
        (∀ x, s.num.dec s.A[1] = some x → s.num.lt NumValue.zero x = false) ∨
        (∀ x, s.num.dec s.A[2] = some x → s.num.lt NumValue.zero x = false) →
      exec (.phaseLoadCal k) s = .next { s with rc := .errArg }) ∧
    (∀ k lc : Nat, s.busy = false → s.ctrl.init = true → k < s.nPhases →
      lc = 0 ∨ (∀ x, s.num.dec s.A[0] = some x → s.num.lt NumValue.zero x = false) ∨
        (∀ x, s.num.dec s.A[1] = some x → s.num.lt NumValue.zero x = false) →
      exec (.phaseCalibrate k lc) s = .next { s with rc := .errArg }) ∧
    (s.busy = false → s.ctrl.init = true →
      s.A[0] = 0#32 ∨ (∀ x, s.num.dec s.A[1] = some x → s.num.lt NumValue.zero x = false) ∨
        (∀ x, s.num.dec s.A[2] = some x → s.num.lt NumValue.zero x = false) →
      exec .globalCalibrate s = .next { s with rc := .errArg }) ∧
    (s.ctrl.init = true →
      (∃ c : Fin 8,
        (∀ x, s.num.dec s.A[c.val] = some x →
          s.num.le NumValue.zero x = false ∨ s.num.lt x s.cfg.meterConstant = false) ∨
        2 ^ s.par.lifeW ≤ s.A[8 + c.val].toNat) →
      exec .energySet s = .next { s with rc := .errArg })

/-- R200, R230: a host command that does not return `OK` changed nothing but `RC`, and never returns `ERR_CAL`. -/
def Obligations.FailedCommandChangesOnlyResultCode : Prop :=
  ∀ (i : Instr) (s t : State), i.opClass = .host → exec i s = .next t →
    (t.rc ≠ .ok → t = { s with rc := t.rc }) ∧ t.rc ≠ .errCal

/-- R68: a command that only reads changes nothing but `RC` and the response registers, and issued again it changes
nothing. -/
def Obligations.ReadCommandsAreIdempotent : Prop :=
  ∀ (i : Instr) (s t : State), readsOnly i = true → exec i s = .next t →
    t = { s with rc := t.rc, R := t.R } ∧ exec i t = .next t

/-- R201: INIT with legal operands, sources stopped and no sequence running, loads `cfg` from `A[0..10]`. -/
def Obligations.InitLoadsTheConfiguration : Prop :=
  ∀ (s : State) (tl th mc nl sag swl fs flc dps : NumValue),
    s.busy = false → s.ctrl.adcEn = false → s.ctrl.tmrEn = false →
    1 ≤ s.A[0].toNat → s.A[0].toNat ≤ 65535 → s.A[7].toNat ≤ 2 ^ 32 - 2 →
    s.num.dec s.A[1] = some tl → s.num.dec s.A[2] = some th → s.num.dec s.A[3] = some mc →
    s.num.dec s.A[4] = some nl → s.num.dec s.A[5] = some sag → s.num.dec s.A[6] = some swl →
    s.num.dec s.A[8] = some fs → s.num.dec s.A[9] = some flc → s.num.dec s.A[10] = some dps →
    s.num.lt NumValue.zero mc = true → s.num.le NumValue.zero nl = true → s.num.lt NumValue.zero fs = true →
    exec .init s =
      .next { s with
        rc := .ok
        cfg := ⟨s.A[0].toNat, tl, th, mc, nl, sag, swl, s.A[7].toNat, fs, flc, dps⟩
        ctrl := { s.ctrl with init := true }
        trace := s.trace ++ [.adcInit, .tmrInit, .rtcInit] }

/-- R202, R203, R204: DEINIT, START and STOP when no sequence runs (START after INIT). -/
def Obligations.LifecycleCommandsDriveTheSources : Prop :=
  ∀ s : State, s.busy = false →
    exec .deinit s =
      .next { s with
        rc := .ok
        ctrl := ⟨false, false, false, false⟩
        ph := []
        trace := s.trace ++ [.adcStop, .tmrStop, .rtcStop] } ∧
    exec .stop s =
      .next { s with
        rc := .ok
        ctrl := ⟨s.ctrl.init, false, false, false⟩
        trace := s.trace ++ [.adcStop, .tmrStop, .rtcStop] } ∧
    (s.ctrl.init = true →
      exec .start s =
        .next { s with
          rc := .ok
          ctrl := ⟨true, true, true, true⟩
          trace := s.trace ++ [.adcStart, .tmrStart, .rtcStart] })

/-- R45, R205: PHASE_REGISTER appends a slot at its registration value and answers its number; with every slot
registered it returns `ERR_FULL`. -/
def Obligations.PhaseRegisterAppendsASlot : Prop :=
  ∀ s : State, s.busy = false → s.ctrl.init = true → s.ctrl.adcEn = false → s.ctrl.tmrEn = false →
    (s.nPhases < s.par.nPhaseMax →
      exec .phaseRegister s =
        .next { s with
          rc := .ok
          R := s.R.set 0 (BitVec.ofNat 32 s.nPhases)
          ph := s.ph ++
            [Slot.blank ⟨s.num.one, s.num.one, s.num.one, NumValue.zero⟩
              ⟨false, false, false⟩ ⟨0, 0, NumValue.zero, NumValue.zero, 0, .none⟩] }) ∧
    (s.par.nPhaseMax ≤ s.nPhases → exec .phaseRegister s = .next { s with rc := .errFull })

/-- R206: PHASE_LOAD_CAL with legal operands on a registered slot loads its coefficients and nothing else. -/
def Obligations.PhaseLoadCalLoadsCoefficients : Prop :=
  ∀ (k : Nat) (s : State) (p : Slot) (vc ic pc corr : NumValue),
    s.busy = false → s.ph[k]? = some p →
    s.num.dec s.A[0] = some vc → s.num.dec s.A[1] = some ic → s.num.dec s.A[2] = some pc →
    s.num.dec s.A[3] = some corr →
    s.num.lt NumValue.zero vc = true → s.num.lt NumValue.zero ic = true → s.num.lt NumValue.zero pc = true →
    exec (.phaseLoadCal k) s =
      .next { s with rc := .ok, ph := s.ph.set k { p with coef := ⟨vc, ic, pc, corr⟩ } }

/-- R207: ENERGY_SET with legal operands restores the accumulators and lifetime counters, busy or not. -/
def Obligations.EnergySetRestoresTheLedger : Prop :=
  ∀ (s : State) (acc : Vector NumValue 8), s.ctrl.init = true →
    (∀ c : Fin 8, s.num.dec s.A[c.val] = some acc[c] ∧ s.num.le NumValue.zero acc[c] = true ∧
      s.num.lt acc[c] s.cfg.meterConstant = true ∧ s.A[8 + c.val].toNat < 2 ^ s.par.lifeW) →
    ∃ life : Vector Nat 8, (∀ c : Fin 8, life[c] = s.A[8 + c.val].toNat) ∧
      exec .energySet s = .next { s with rc := .ok, ledger := ⟨s.ledger.unit, acc, life⟩ }

/-- R208, R217: ENERGY_GET answers the eight accumulators and the eight lifetime counters; CONS_GET, after INIT, answers
`ofInt(life) * meter_constant + acc` for each category in `R[0..7]` and leaves the other response registers. -/
def Obligations.EnergyGetAndConsGetReadTheLedger : Prop :=
  ∀ s : State,
    (∃ r : Vector Word 16,
      (∀ c : Fin 8, r[c.val] = s.num.enc s.ledger.acc[c] ∧ r[8 + c.val] = BitVec.ofNat 32 s.ledger.life[c]) ∧
      exec .energyGet s = .next { s with rc := .ok, R := r }) ∧
    (s.ctrl.init = true → ∃ r : Vector Word 16,
      (∀ c : Fin 8,
        r[c.val] =
          s.num.enc
            (s.num.add (s.num.mul (s.num.ofInt s.ledger.life[c]) s.cfg.meterConstant) s.ledger.acc[c]) ∧
        r[8 + c.val] = s.R[8 + c.val]) ∧
      exec .consGet s = .next { s with rc := .ok, R := r })

/-- R209 to R215: the status and the single measurement getters of a registered slot. -/
def Obligations.SingleGettersReadTheSlot : Prop :=
  ∀ (k : Nat) (s : State) (p : Slot), s.ph[k]? = some p →
    exec (.statusGet k) s =
      .next { s with
        rc := .ok
        R := s.R.set 0
          (BitVec.ofNat 32
            ((if p.status.noloadP then 1 else 0) + (if p.status.noloadQ then 2 else 0) +
              (if p.status.noloadS then 4 else 0) + (if p.status.sag then 8 else 0) +
              (if p.status.swell then 16 else 0))) } ∧
    exec (.vrmsGet k) s = .next { s with rc := .ok, R := s.R.set 0 (s.num.enc p.meas.vrms) } ∧
    exec (.irmsGet k) s = .next { s with rc := .ok, R := s.R.set 0 (s.num.enc p.meas.irms) } ∧
    exec (.flineGet k) s = .next { s with rc := .ok, R := s.R.set 0 (s.num.enc p.meas.fline) } ∧
    exec (.pGet k) s = .next { s with rc := .ok, R := s.R.set 0 (s.num.enc p.meas.p) } ∧
    exec (.qGet k) s = .next { s with rc := .ok, R := s.R.set 0 (s.num.enc p.meas.q) } ∧
    exec (.sGet k) s = .next { s with rc := .ok, R := s.R.set 0 (s.num.enc p.meas.s) }

/-- R216, R176: MEAS_GET and PHASE_CAL_GET of a registered slot answer their records in consecutive response registers
and leave the others. -/
def Obligations.RecordGettersReadTheSlot : Prop :=
  ∀ (k : Nat) (s : State) (p : Slot), s.ph[k]? = some p →
    exec (.measGet k) s =
      .next { s with
        rc := .ok
        R := (((((s.R.set 0 (s.num.enc p.meas.vrms)).set 1 (s.num.enc p.meas.irms)).set 2
          (s.num.enc p.meas.fline)).set 3 (s.num.enc p.meas.p)).set 4 (s.num.enc p.meas.q)).set 5
          (s.num.enc p.meas.s) } ∧
    exec (.phaseCalGet k) s =
      .next { s with
        rc := .ok
        R := ((((s.R.set 0 (s.num.enc p.coef.vrmsCoeff)).set 1 (s.num.enc p.coef.irmsCoeff)).set 2
          (s.num.enc p.coef.pCoeff)).set 3 (s.num.enc p.coef.viPhaseCorrection)).set 4
          (match p.ang.status with
            | .none => 0#32
            | .ok => 1#32
            | .phaseAngleError => 2#32) }

/-- R218: MEAS_READY answers the flag and clears it; asked again it answers 0. -/
def Obligations.MeasReadyTestsAndClears : Prop :=
  ∀ (k : Nat) (s : State) (p : Slot), s.ph[k]? = some p →
    exec (.measReady k) s =
      .next { s with
        rc := .ok
        R := s.R.set 0 (if p.sig.measReady then 1#32 else 0#32)
        ph := s.ph.set k { p with sig := { p.sig with measReady := false } } } ∧
    (∀ t : State, exec (.measReady k) s = .next t →
      exec (.measReady k) t = .next { t with R := t.R.set 0 0#32 })

/-- R175, R219: SEQ_STATUS and STAT_GET answer the sequencer, and the control word, phase count and fault word. -/
def Obligations.StatusCommandsReadTheBlock : Prop :=
  ∀ s : State,
    exec .seqStatus s =
      .next { s with
        rc := .ok
        R := ((s.R.set 0
          (match s.seq.state with
            | .idle => 0#32
            | .pcalW1 => 1#32
            | .pcalW2 => 2#32
            | .gcalW => 3#32)).set 1 (BitVec.ofNat 32 s.seq.result.code)).set 2
          (BitVec.ofNat 32 s.seq.target) } ∧
    exec .statGet s =
      .next { s with
        rc := .ok
        R := ((s.R.set 0
          (BitVec.ofNat 32
            ((if s.ctrl.init then 1 else 0) + (if s.ctrl.adcEn then 2 else 0) +
              (if s.ctrl.tmrEn then 4 else 0) + (if s.ctrl.rtcEn then 8 else 0) +
              (if s.seq.state = .idle then 0 else 16)))).set 1 (BitVec.ofNat 32 s.ph.length)).set 2
          (BitVec.ofNat 32 ((if s.fault.ovf then 1 else 0) + (if s.fault.bus then 2 else 0))) }

/-! ## Whole-machine rules -/

/-- R22, R25, R43, R233: no operation writes an operand register, a parameter or what is to come, clears a fault bit,
sets `fault.BUS`, or removes an output request. -/
def Obligations.OperationsKeepOperandsFaultsAndTrace : Prop :=
  ∀ (i : Instr) (s t : State), exec i s = .next t →
    t.A = s.A ∧ t.par = s.par ∧ t.inbox = s.inbox ∧ t.smp = s.smp ∧ t.rdata = s.rdata ∧
    (s.fault.ovf = true → t.fault.ovf = true) ∧ t.fault.bus = s.fault.bus ∧
    ∃ requests : List Request, t.trace = s.trace ++ requests

/-- R22, R23, R26, R37, R39: who may write what: the response registers and `RC` only host commands; the ledger
accumulators and lifetime counters only ENERGY_ROUTE, EV_ADC and ENERGY_SET; the configuration only INIT,
PHASE_CALIBRATE and SEQ_STEP, INIT only with ADC and timer stopped; the phase table's size only PHASE_REGISTER and
DEINIT. -/
def Obligations.EachRecordHasItsWriters : Prop :=
  ∀ (i : Instr) (s t : State), exec i s = .next t →
    (i.opClass ≠ .host → t.R = s.R ∧ t.rc = s.rc) ∧
    (i ≠ .energyRoute → i ≠ .evAdc → i ≠ .energySet →
      t.ledger.acc = s.ledger.acc ∧ t.ledger.life = s.ledger.life) ∧
    (i ≠ .init → i ≠ .seqStep → (∀ k lc : Nat, i ≠ .phaseCalibrate k lc) → t.cfg = s.cfg) ∧
    (i = .init → s.ctrl.adcEn = true ∨ s.ctrl.tmrEn = true → t.cfg = s.cfg) ∧
    (i ≠ .phaseRegister → i ≠ .deinit → t.nPhases = s.nPhases)

/-- R26, R116 and the fields each micro-operation writes: a micro-operation on slot `k` changes no other slot and,
beyond `ph`, nothing but `fault.OVF`. -/
def Obligations.MicroOperationsTouchOnlyTheirSlot : Prop :=
  ∀ (i : Instr) (s t : State), i.opClass = .micro → i ≠ .ledDecay → i ≠ .energyRoute → i ≠ .seqStep →
    exec i s = .next t →
    t = { s with ph := t.ph, fault := { s.fault with ovf := t.fault.ovf } } ∧
    t.ph.length = s.ph.length ∧ ∀ j : Nat, j ≠ i.phase → t.ph[j]? = s.ph[j]?

/-! ## Invariants -/

/-- R8, R26 to R31, R36, R37, R39 to R42: with legal parameters every step keeps every integer field in its range. -/
def Obligations.StepKeepsFieldsInRange : Prop :=
  ∀ s t : State, s.par.legal = true → s.FieldsInRange → step s = .next t → t.FieldsInRange

/-- R24, R41, R160 to R163, R170, R240: every step keeps the control state coherent. -/
def Obligations.StepKeepsControlCoherent : Prop :=
  ∀ s t : State, s.ControlCoherent → step s = .next t → t.ControlCoherent

/-- R30, R117, R132: when only the agents act, every step keeps the snapshots measurable: unless an overflow was
recorded, a ready window counts at least one sample and no sum of squares is negative. -/
def Obligations.StepKeepsSnapshotsMeasurable : Prop :=
  ∀ s t : State, s.AgentsOnly → s.SnapshotsMeasurable → step s = .next t →
    t.AgentsOnly ∧ t.SnapshotsMeasurable

/-- R33: every step keeps `SAG` and `SWELL` exclusive in every slot. -/
def Obligations.StepKeepsSagAndSwellExclusive : Prop :=
  ∀ s t : State, s.StatusExclusive → step s = .next t → t.StatusExclusive

/-- R102: every step keeps the fact that a set debounce flag stands after a positive sample; so the debounce term never
changes which samples are crossings. -/
def Obligations.DebounceNeverFiltersACrossing : Prop :=
  (∀ s t : State, s.DebouncePositive → step s = .next t → t.DebouncePositive) ∧
  (∀ (s : State) (p : Slot) (sample : Int), s.DebouncePositive → p ∈ s.ph →
    (p.zc.crosses sample = true ↔ p.zc.last ≤ 0 ∧ 0 < sample))

/-- R32, R160, R170: when only the agents act, every step keeps the angle sub-mode to the target of a phase calibration
in its second stage. -/
def Obligations.StepKeepsAngleModeOwned : Prop :=
  ∀ s t : State, s.AgentsOnly → s.AngleOwned → step s = .next t → t.AgentsOnly ∧ t.AngleOwned

/-- The state after power-on reset satisfies every invariant above, and its parameters are legal. -/
def Obligations.ResetSatisfiesTheInvariants : Prop :=
  State.reset.FieldsInRange ∧ State.reset.ControlCoherent ∧ State.reset.AgentsOnly ∧
  State.reset.SnapshotsMeasurable ∧ State.reset.StatusExclusive ∧ State.reset.DebouncePositive ∧
  State.reset.AngleOwned ∧ State.reset.par.legal = true
end

