-- ==== Sys2Proof/Laws/Num.lean ====
section
/-! SUPPORT. The numeric structures (R9): what a choice of `NUM` stands for, and the binary32 structure, operation by
operation, in terms of the arithmetic on encodings. -/

namespace Sys2Proof

@[simp] theorem NumChoice.ops_binary32 : NumChoice.binary32.ops = NumStructure.binary32 := rfl
@[simp] theorem NumChoice.ops_other (id : Nat) : (NumChoice.other id).ops = Config.numStructure id := rfl

/-- A binary32 value is read back from its number. -/
@[simp] theorem Num32.toNum_toBinary32 (x : Num32) : x.toNum.toBinary32 = x := by
  simp [Num32.toNum, NumValue.toBinary32]

/-- The number of a binary32 value is below 2^32. -/
theorem Num32.toNum_code_lt (x : Num32) : x.toNum.code < 2 ^ 32 := x.bits.isLt

/-- Numbers below 2^32 and binary32 values correspond. -/
theorem NumValue.toBinary32_toNum {x : NumValue} (h : x.code < 2 ^ 32) : x.toBinary32.toNum = x := by
  cases x
  exact congrArg NumValue.mk (Nat.mod_eq_of_lt h)

namespace NumStructure

@[simp] theorem binary32_one : binary32.one = ⟨0x3F800000⟩ := rfl
@[simp] theorem binary32_threeSixty : binary32.threeSixty = ⟨0x43B40000⟩ := rfl
theorem binary32_ofInt (z : Int) : binary32.ofInt z = (Num32.ofInt z).toNum := rfl
theorem binary32_add (x y : NumValue) : binary32.add x y = (Num32.add x.toBinary32 y.toBinary32).toNum := rfl
theorem binary32_sub (x y : NumValue) : binary32.sub x y = (Num32.sub x.toBinary32 y.toBinary32).toNum := rfl
theorem binary32_mul (x y : NumValue) : binary32.mul x y = (Num32.mul x.toBinary32 y.toBinary32).toNum := rfl
theorem binary32_div (x y : NumValue) : binary32.div x y = (Num32.div x.toBinary32 y.toBinary32).toNum := rfl
theorem binary32_neg (x : NumValue) : binary32.neg x = (Num32.neg x.toBinary32).toNum := rfl
theorem binary32_abs (x : NumValue) : binary32.abs x = (Num32.abs x.toBinary32).toNum := rfl
theorem binary32_sqrt (x : NumValue) : binary32.sqrt x = (Num32.sqrt x.toBinary32).toNum := rfl
theorem binary32_lt (x y : NumValue) : binary32.lt x y = Num32.lt x.toBinary32 y.toBinary32 := rfl
theorem binary32_le (x y : NumValue) : binary32.le x y = Num32.le x.toBinary32 y.toBinary32 := rfl
theorem binary32_eq (x y : NumValue) : binary32.eq x y = Num32.eq x.toBinary32 y.toBinary32 := rfl
theorem binary32_enc (x : NumValue) : binary32.enc x = Num32.enc x.toBinary32 := rfl
theorem binary32_dec (w : Word) : binary32.dec w = (Num32.dec w).map Num32.toNum := rfl

end NumStructure

end Sys2Proof
end

