-- ==== Sys2Proof/Laws/State.lean ====
section
/-! SUPPORT. What each named update of the state does to each field: one lemma per field per update, true by
definition. -/

namespace Sys2Proof.Machine

/-! ## `State.noteOvf` -/

@[simp] theorem State.noteOvf_ctrl (b : Bool) (s : State) : (s.noteOvf b).ctrl = s.ctrl := rfl
@[simp] theorem State.noteOvf_fault (b : Bool) (s : State) :
    (s.noteOvf b).fault = { s.fault with ovf := s.fault.ovf || b } := rfl
@[simp] theorem State.noteOvf_ph (b : Bool) (s : State) : (s.noteOvf b).ph = s.ph := rfl
@[simp] theorem State.noteOvf_cfg (b : Bool) (s : State) : (s.noteOvf b).cfg = s.cfg := rfl
@[simp] theorem State.noteOvf_ledger (b : Bool) (s : State) : (s.noteOvf b).ledger = s.ledger := rfl
@[simp] theorem State.noteOvf_led (b : Bool) (s : State) : (s.noteOvf b).led = s.led := rfl
@[simp] theorem State.noteOvf_cfs (b : Bool) (s : State) : (s.noteOvf b).cfs = s.cfs := rfl
@[simp] theorem State.noteOvf_seq (b : Bool) (s : State) : (s.noteOvf b).seq = s.seq := rfl
@[simp] theorem State.noteOvf_A (b : Bool) (s : State) : (s.noteOvf b).A = s.A := rfl
@[simp] theorem State.noteOvf_R (b : Bool) (s : State) : (s.noteOvf b).R = s.R := rfl
@[simp] theorem State.noteOvf_rc (b : Bool) (s : State) : (s.noteOvf b).rc = s.rc := rfl
@[simp] theorem State.noteOvf_trace (b : Bool) (s : State) : (s.noteOvf b).trace = s.trace := rfl
@[simp] theorem State.noteOvf_par (b : Bool) (s : State) : (s.noteOvf b).par = s.par := rfl
@[simp] theorem State.noteOvf_num (b : Bool) (s : State) : (s.noteOvf b).num = s.num := rfl
@[simp] theorem State.noteOvf_smp (b : Bool) (s : State) : (s.noteOvf b).smp = s.smp := rfl
@[simp] theorem State.noteOvf_rdata (b : Bool) (s : State) : (s.noteOvf b).rdata = s.rdata := rfl
@[simp] theorem State.noteOvf_inbox (b : Bool) (s : State) : (s.noteOvf b).inbox = s.inbox := rfl

/-! ## `State.noteBus` -/

@[simp] theorem State.noteBus_ctrl (s : State) : (s.noteBus).ctrl = s.ctrl := rfl
@[simp] theorem State.noteBus_fault (s : State) : (s.noteBus).fault = { s.fault with bus := true } := rfl
@[simp] theorem State.noteBus_ph (s : State) : (s.noteBus).ph = s.ph := rfl
@[simp] theorem State.noteBus_cfg (s : State) : (s.noteBus).cfg = s.cfg := rfl
@[simp] theorem State.noteBus_ledger (s : State) : (s.noteBus).ledger = s.ledger := rfl
@[simp] theorem State.noteBus_led (s : State) : (s.noteBus).led = s.led := rfl
@[simp] theorem State.noteBus_cfs (s : State) : (s.noteBus).cfs = s.cfs := rfl
@[simp] theorem State.noteBus_seq (s : State) : (s.noteBus).seq = s.seq := rfl
@[simp] theorem State.noteBus_A (s : State) : (s.noteBus).A = s.A := rfl
@[simp] theorem State.noteBus_R (s : State) : (s.noteBus).R = s.R := rfl
@[simp] theorem State.noteBus_rc (s : State) : (s.noteBus).rc = s.rc := rfl
@[simp] theorem State.noteBus_trace (s : State) : (s.noteBus).trace = s.trace := rfl
@[simp] theorem State.noteBus_par (s : State) : (s.noteBus).par = s.par := rfl
@[simp] theorem State.noteBus_num (s : State) : (s.noteBus).num = s.num := rfl
@[simp] theorem State.noteBus_smp (s : State) : (s.noteBus).smp = s.smp := rfl
@[simp] theorem State.noteBus_rdata (s : State) : (s.noteBus).rdata = s.rdata := rfl
@[simp] theorem State.noteBus_inbox (s : State) : (s.noteBus).inbox = s.inbox := rfl

/-! ## `State.emit` -/

@[simp] theorem State.emit_ctrl (e : Request) (s : State) : (s.emit e).ctrl = s.ctrl := rfl
@[simp] theorem State.emit_fault (e : Request) (s : State) : (s.emit e).fault = s.fault := rfl
@[simp] theorem State.emit_ph (e : Request) (s : State) : (s.emit e).ph = s.ph := rfl
@[simp] theorem State.emit_cfg (e : Request) (s : State) : (s.emit e).cfg = s.cfg := rfl
@[simp] theorem State.emit_ledger (e : Request) (s : State) : (s.emit e).ledger = s.ledger := rfl
@[simp] theorem State.emit_led (e : Request) (s : State) : (s.emit e).led = s.led := rfl
@[simp] theorem State.emit_cfs (e : Request) (s : State) : (s.emit e).cfs = s.cfs := rfl
@[simp] theorem State.emit_seq (e : Request) (s : State) : (s.emit e).seq = s.seq := rfl
@[simp] theorem State.emit_A (e : Request) (s : State) : (s.emit e).A = s.A := rfl
@[simp] theorem State.emit_R (e : Request) (s : State) : (s.emit e).R = s.R := rfl
@[simp] theorem State.emit_rc (e : Request) (s : State) : (s.emit e).rc = s.rc := rfl
@[simp] theorem State.emit_trace (e : Request) (s : State) : (s.emit e).trace = s.trace ++ [e] := rfl
@[simp] theorem State.emit_par (e : Request) (s : State) : (s.emit e).par = s.par := rfl
@[simp] theorem State.emit_num (e : Request) (s : State) : (s.emit e).num = s.num := rfl
@[simp] theorem State.emit_smp (e : Request) (s : State) : (s.emit e).smp = s.smp := rfl
@[simp] theorem State.emit_rdata (e : Request) (s : State) : (s.emit e).rdata = s.rdata := rfl
@[simp] theorem State.emit_inbox (e : Request) (s : State) : (s.emit e).inbox = s.inbox := rfl

/-! ## `State.setSlot` -/

@[simp] theorem State.setSlot_ctrl (k : Nat) (p : Slot) (s : State) : (s.setSlot k p).ctrl = s.ctrl := rfl
@[simp] theorem State.setSlot_fault (k : Nat) (p : Slot) (s : State) : (s.setSlot k p).fault = s.fault := rfl
@[simp] theorem State.setSlot_ph (k : Nat) (p : Slot) (s : State) : (s.setSlot k p).ph = s.ph.set k p := rfl
@[simp] theorem State.setSlot_cfg (k : Nat) (p : Slot) (s : State) : (s.setSlot k p).cfg = s.cfg := rfl
@[simp] theorem State.setSlot_ledger (k : Nat) (p : Slot) (s : State) : (s.setSlot k p).ledger = s.ledger := rfl
@[simp] theorem State.setSlot_led (k : Nat) (p : Slot) (s : State) : (s.setSlot k p).led = s.led := rfl
@[simp] theorem State.setSlot_cfs (k : Nat) (p : Slot) (s : State) : (s.setSlot k p).cfs = s.cfs := rfl
@[simp] theorem State.setSlot_seq (k : Nat) (p : Slot) (s : State) : (s.setSlot k p).seq = s.seq := rfl
@[simp] theorem State.setSlot_A (k : Nat) (p : Slot) (s : State) : (s.setSlot k p).A = s.A := rfl
@[simp] theorem State.setSlot_R (k : Nat) (p : Slot) (s : State) : (s.setSlot k p).R = s.R := rfl
@[simp] theorem State.setSlot_rc (k : Nat) (p : Slot) (s : State) : (s.setSlot k p).rc = s.rc := rfl
@[simp] theorem State.setSlot_trace (k : Nat) (p : Slot) (s : State) : (s.setSlot k p).trace = s.trace := rfl
@[simp] theorem State.setSlot_par (k : Nat) (p : Slot) (s : State) : (s.setSlot k p).par = s.par := rfl
@[simp] theorem State.setSlot_num (k : Nat) (p : Slot) (s : State) : (s.setSlot k p).num = s.num := rfl
@[simp] theorem State.setSlot_smp (k : Nat) (p : Slot) (s : State) : (s.setSlot k p).smp = s.smp := rfl
@[simp] theorem State.setSlot_rdata (k : Nat) (p : Slot) (s : State) : (s.setSlot k p).rdata = s.rdata := rfl
@[simp] theorem State.setSlot_inbox (k : Nat) (p : Slot) (s : State) : (s.setSlot k p).inbox = s.inbox := rfl

/-! ## `State.setLed` -/

@[simp] theorem State.setLed_ctrl (l : LedId) (x : Led) (s : State) : (s.setLed l x).ctrl = s.ctrl := rfl
@[simp] theorem State.setLed_fault (l : LedId) (x : Led) (s : State) : (s.setLed l x).fault = s.fault := rfl
@[simp] theorem State.setLed_ph (l : LedId) (x : Led) (s : State) : (s.setLed l x).ph = s.ph := rfl
@[simp] theorem State.setLed_cfg (l : LedId) (x : Led) (s : State) : (s.setLed l x).cfg = s.cfg := rfl
@[simp] theorem State.setLed_ledger (l : LedId) (x : Led) (s : State) : (s.setLed l x).ledger = s.ledger := rfl
@[simp] theorem State.setLed_led (l : LedId) (x : Led) (s : State) : (s.setLed l x).led = s.led.put l x := rfl
@[simp] theorem State.setLed_cfs (l : LedId) (x : Led) (s : State) : (s.setLed l x).cfs = s.cfs := rfl
@[simp] theorem State.setLed_seq (l : LedId) (x : Led) (s : State) : (s.setLed l x).seq = s.seq := rfl
@[simp] theorem State.setLed_A (l : LedId) (x : Led) (s : State) : (s.setLed l x).A = s.A := rfl
@[simp] theorem State.setLed_R (l : LedId) (x : Led) (s : State) : (s.setLed l x).R = s.R := rfl
@[simp] theorem State.setLed_rc (l : LedId) (x : Led) (s : State) : (s.setLed l x).rc = s.rc := rfl
@[simp] theorem State.setLed_trace (l : LedId) (x : Led) (s : State) : (s.setLed l x).trace = s.trace := rfl
@[simp] theorem State.setLed_par (l : LedId) (x : Led) (s : State) : (s.setLed l x).par = s.par := rfl
@[simp] theorem State.setLed_num (l : LedId) (x : Led) (s : State) : (s.setLed l x).num = s.num := rfl
@[simp] theorem State.setLed_smp (l : LedId) (x : Led) (s : State) : (s.setLed l x).smp = s.smp := rfl
@[simp] theorem State.setLed_rdata (l : LedId) (x : Led) (s : State) : (s.setLed l x).rdata = s.rdata := rfl
@[simp] theorem State.setLed_inbox (l : LedId) (x : Led) (s : State) : (s.setLed l x).inbox = s.inbox := rfl

/-! ## `State.setRc` -/

@[simp] theorem State.setRc_ctrl (rc : ResultCode) (s : State) : (s.setRc rc).ctrl = s.ctrl := rfl
@[simp] theorem State.setRc_fault (rc : ResultCode) (s : State) : (s.setRc rc).fault = s.fault := rfl
@[simp] theorem State.setRc_ph (rc : ResultCode) (s : State) : (s.setRc rc).ph = s.ph := rfl
@[simp] theorem State.setRc_cfg (rc : ResultCode) (s : State) : (s.setRc rc).cfg = s.cfg := rfl
@[simp] theorem State.setRc_ledger (rc : ResultCode) (s : State) : (s.setRc rc).ledger = s.ledger := rfl
@[simp] theorem State.setRc_led (rc : ResultCode) (s : State) : (s.setRc rc).led = s.led := rfl
@[simp] theorem State.setRc_cfs (rc : ResultCode) (s : State) : (s.setRc rc).cfs = s.cfs := rfl
@[simp] theorem State.setRc_seq (rc : ResultCode) (s : State) : (s.setRc rc).seq = s.seq := rfl
@[simp] theorem State.setRc_A (rc : ResultCode) (s : State) : (s.setRc rc).A = s.A := rfl
@[simp] theorem State.setRc_R (rc : ResultCode) (s : State) : (s.setRc rc).R = s.R := rfl
@[simp] theorem State.setRc_rc (rc : ResultCode) (s : State) : (s.setRc rc).rc = rc := rfl
@[simp] theorem State.setRc_trace (rc : ResultCode) (s : State) : (s.setRc rc).trace = s.trace := rfl
@[simp] theorem State.setRc_par (rc : ResultCode) (s : State) : (s.setRc rc).par = s.par := rfl
@[simp] theorem State.setRc_num (rc : ResultCode) (s : State) : (s.setRc rc).num = s.num := rfl
@[simp] theorem State.setRc_smp (rc : ResultCode) (s : State) : (s.setRc rc).smp = s.smp := rfl
@[simp] theorem State.setRc_rdata (rc : ResultCode) (s : State) : (s.setRc rc).rdata = s.rdata := rfl
@[simp] theorem State.setRc_inbox (rc : ResultCode) (s : State) : (s.setRc rc).inbox = s.inbox := rfl

/-! ## `State.respond` -/

@[simp] theorem State.respond_ctrl (ws : List Word) (s : State) : (s.respond ws).ctrl = s.ctrl := rfl
@[simp] theorem State.respond_fault (ws : List Word) (s : State) : (s.respond ws).fault = s.fault := rfl
@[simp] theorem State.respond_ph (ws : List Word) (s : State) : (s.respond ws).ph = s.ph := rfl
@[simp] theorem State.respond_cfg (ws : List Word) (s : State) : (s.respond ws).cfg = s.cfg := rfl
@[simp] theorem State.respond_ledger (ws : List Word) (s : State) : (s.respond ws).ledger = s.ledger := rfl
@[simp] theorem State.respond_led (ws : List Word) (s : State) : (s.respond ws).led = s.led := rfl
@[simp] theorem State.respond_cfs (ws : List Word) (s : State) : (s.respond ws).cfs = s.cfs := rfl
@[simp] theorem State.respond_seq (ws : List Word) (s : State) : (s.respond ws).seq = s.seq := rfl
@[simp] theorem State.respond_A (ws : List Word) (s : State) : (s.respond ws).A = s.A := rfl
@[simp] theorem State.respond_R (ws : List Word) (s : State) : (s.respond ws).R = writeFrom 0 ws s.R := rfl
@[simp] theorem State.respond_rc (ws : List Word) (s : State) : (s.respond ws).rc = .ok := rfl
@[simp] theorem State.respond_trace (ws : List Word) (s : State) : (s.respond ws).trace = s.trace := rfl
@[simp] theorem State.respond_par (ws : List Word) (s : State) : (s.respond ws).par = s.par := rfl
@[simp] theorem State.respond_num (ws : List Word) (s : State) : (s.respond ws).num = s.num := rfl
@[simp] theorem State.respond_smp (ws : List Word) (s : State) : (s.respond ws).smp = s.smp := rfl
@[simp] theorem State.respond_rdata (ws : List Word) (s : State) : (s.respond ws).rdata = s.rdata := rfl
@[simp] theorem State.respond_inbox (ws : List Word) (s : State) : (s.respond ws).inbox = s.inbox := rfl

/-! ## `State.setAcc` -/

@[simp] theorem State.setAcc_ctrl (c : Category) (x : NumValue) (s : State) : (s.setAcc c x).ctrl = s.ctrl := rfl
@[simp] theorem State.setAcc_fault (c : Category) (x : NumValue) (s : State) : (s.setAcc c x).fault = s.fault := rfl
@[simp] theorem State.setAcc_ph (c : Category) (x : NumValue) (s : State) : (s.setAcc c x).ph = s.ph := rfl
@[simp] theorem State.setAcc_cfg (c : Category) (x : NumValue) (s : State) : (s.setAcc c x).cfg = s.cfg := rfl
@[simp] theorem State.setAcc_ledger (c : Category) (x : NumValue) (s : State) :
    (s.setAcc c x).ledger = { s.ledger with acc := s.ledger.acc.set c.index x } := rfl
@[simp] theorem State.setAcc_led (c : Category) (x : NumValue) (s : State) : (s.setAcc c x).led = s.led := rfl
@[simp] theorem State.setAcc_cfs (c : Category) (x : NumValue) (s : State) : (s.setAcc c x).cfs = s.cfs := rfl
@[simp] theorem State.setAcc_seq (c : Category) (x : NumValue) (s : State) : (s.setAcc c x).seq = s.seq := rfl
@[simp] theorem State.setAcc_A (c : Category) (x : NumValue) (s : State) : (s.setAcc c x).A = s.A := rfl
@[simp] theorem State.setAcc_R (c : Category) (x : NumValue) (s : State) : (s.setAcc c x).R = s.R := rfl
@[simp] theorem State.setAcc_rc (c : Category) (x : NumValue) (s : State) : (s.setAcc c x).rc = s.rc := rfl
@[simp] theorem State.setAcc_trace (c : Category) (x : NumValue) (s : State) : (s.setAcc c x).trace = s.trace := rfl
@[simp] theorem State.setAcc_par (c : Category) (x : NumValue) (s : State) : (s.setAcc c x).par = s.par := rfl
@[simp] theorem State.setAcc_num (c : Category) (x : NumValue) (s : State) : (s.setAcc c x).num = s.num := rfl
@[simp] theorem State.setAcc_smp (c : Category) (x : NumValue) (s : State) : (s.setAcc c x).smp = s.smp := rfl
@[simp] theorem State.setAcc_rdata (c : Category) (x : NumValue) (s : State) : (s.setAcc c x).rdata = s.rdata := rfl
@[simp] theorem State.setAcc_inbox (c : Category) (x : NumValue) (s : State) : (s.setAcc c x).inbox = s.inbox := rfl

/-! ## `State.setLife` -/

@[simp] theorem State.setLife_ctrl (c : Category) (n : Nat) (s : State) : (s.setLife c n).ctrl = s.ctrl := rfl
@[simp] theorem State.setLife_fault (c : Category) (n : Nat) (s : State) : (s.setLife c n).fault = s.fault := rfl
@[simp] theorem State.setLife_ph (c : Category) (n : Nat) (s : State) : (s.setLife c n).ph = s.ph := rfl
@[simp] theorem State.setLife_cfg (c : Category) (n : Nat) (s : State) : (s.setLife c n).cfg = s.cfg := rfl
@[simp] theorem State.setLife_ledger (c : Category) (n : Nat) (s : State) :
    (s.setLife c n).ledger = { s.ledger with life := s.ledger.life.set c.index n } := rfl
@[simp] theorem State.setLife_led (c : Category) (n : Nat) (s : State) : (s.setLife c n).led = s.led := rfl
@[simp] theorem State.setLife_cfs (c : Category) (n : Nat) (s : State) : (s.setLife c n).cfs = s.cfs := rfl
@[simp] theorem State.setLife_seq (c : Category) (n : Nat) (s : State) : (s.setLife c n).seq = s.seq := rfl
@[simp] theorem State.setLife_A (c : Category) (n : Nat) (s : State) : (s.setLife c n).A = s.A := rfl
@[simp] theorem State.setLife_R (c : Category) (n : Nat) (s : State) : (s.setLife c n).R = s.R := rfl
@[simp] theorem State.setLife_rc (c : Category) (n : Nat) (s : State) : (s.setLife c n).rc = s.rc := rfl
@[simp] theorem State.setLife_trace (c : Category) (n : Nat) (s : State) : (s.setLife c n).trace = s.trace := rfl
@[simp] theorem State.setLife_par (c : Category) (n : Nat) (s : State) : (s.setLife c n).par = s.par := rfl
@[simp] theorem State.setLife_num (c : Category) (n : Nat) (s : State) : (s.setLife c n).num = s.num := rfl
@[simp] theorem State.setLife_smp (c : Category) (n : Nat) (s : State) : (s.setLife c n).smp = s.smp := rfl
@[simp] theorem State.setLife_rdata (c : Category) (n : Nat) (s : State) : (s.setLife c n).rdata = s.rdata := rfl
@[simp] theorem State.setLife_inbox (c : Category) (n : Nat) (s : State) : (s.setLife c n).inbox = s.inbox := rfl

/-! ## `State.retrigger` -/

@[simp] theorem State.retrigger_ctrl (l : LedId) (s : State) : (s.retrigger l).ctrl = s.ctrl := rfl
@[simp] theorem State.retrigger_fault (l : LedId) (s : State) : (s.retrigger l).fault = s.fault := rfl
@[simp] theorem State.retrigger_ph (l : LedId) (s : State) : (s.retrigger l).ph = s.ph := rfl
@[simp] theorem State.retrigger_cfg (l : LedId) (s : State) : (s.retrigger l).cfg = s.cfg := rfl
@[simp] theorem State.retrigger_ledger (l : LedId) (s : State) : (s.retrigger l).ledger = s.ledger := rfl
@[simp] theorem State.retrigger_led (l : LedId) (s : State) : (s.retrigger l).led = s.led.put l ⟨true, 0⟩ := rfl
@[simp] theorem State.retrigger_cfs (l : LedId) (s : State) : (s.retrigger l).cfs = s.cfs := rfl
@[simp] theorem State.retrigger_seq (l : LedId) (s : State) : (s.retrigger l).seq = s.seq := rfl
@[simp] theorem State.retrigger_A (l : LedId) (s : State) : (s.retrigger l).A = s.A := rfl
@[simp] theorem State.retrigger_R (l : LedId) (s : State) : (s.retrigger l).R = s.R := rfl
@[simp] theorem State.retrigger_rc (l : LedId) (s : State) : (s.retrigger l).rc = s.rc := rfl
@[simp] theorem State.retrigger_trace (l : LedId) (s : State) : (s.retrigger l).trace = s.trace ++ [l.onRequest] := rfl
@[simp] theorem State.retrigger_par (l : LedId) (s : State) : (s.retrigger l).par = s.par := rfl
@[simp] theorem State.retrigger_num (l : LedId) (s : State) : (s.retrigger l).num = s.num := rfl
@[simp] theorem State.retrigger_smp (l : LedId) (s : State) : (s.retrigger l).smp = s.smp := rfl
@[simp] theorem State.retrigger_rdata (l : LedId) (s : State) : (s.retrigger l).rdata = s.rdata := rfl
@[simp] theorem State.retrigger_inbox (l : LedId) (s : State) : (s.retrigger l).inbox = s.inbox := rfl

/-! ## `State.restoreInterval` -/

@[simp] theorem State.restoreInterval_ctrl (s : State) : (s.restoreInterval).ctrl = s.ctrl := rfl
@[simp] theorem State.restoreInterval_fault (s : State) : (s.restoreInterval).fault = s.fault := rfl
@[simp] theorem State.restoreInterval_ph (s : State) : (s.restoreInterval).ph = s.ph := rfl
@[simp] theorem State.restoreInterval_cfg (s : State) :
    (s.restoreInterval).cfg = { s.cfg with updateInterval := s.seq.savedUi } := rfl
@[simp] theorem State.restoreInterval_ledger (s : State) : (s.restoreInterval).ledger = s.ledger := rfl
@[simp] theorem State.restoreInterval_led (s : State) : (s.restoreInterval).led = s.led := rfl
@[simp] theorem State.restoreInterval_cfs (s : State) : (s.restoreInterval).cfs = s.cfs := rfl
@[simp] theorem State.restoreInterval_seq (s : State) : (s.restoreInterval).seq = s.seq := rfl
@[simp] theorem State.restoreInterval_A (s : State) : (s.restoreInterval).A = s.A := rfl
@[simp] theorem State.restoreInterval_R (s : State) : (s.restoreInterval).R = s.R := rfl
@[simp] theorem State.restoreInterval_rc (s : State) : (s.restoreInterval).rc = s.rc := rfl
@[simp] theorem State.restoreInterval_trace (s : State) : (s.restoreInterval).trace = s.trace := rfl
@[simp] theorem State.restoreInterval_par (s : State) : (s.restoreInterval).par = s.par := rfl
@[simp] theorem State.restoreInterval_num (s : State) : (s.restoreInterval).num = s.num := rfl
@[simp] theorem State.restoreInterval_smp (s : State) : (s.restoreInterval).smp = s.smp := rfl
@[simp] theorem State.restoreInterval_rdata (s : State) : (s.restoreInterval).rdata = s.rdata := rfl
@[simp] theorem State.restoreInterval_inbox (s : State) : (s.restoreInterval).inbox = s.inbox := rfl

/-! ## `State.writeOperand` -/

@[simp] theorem State.writeOperand_ctrl (j : Fin 16) (v : Word) (s : State) : (s.writeOperand j v).ctrl = s.ctrl := rfl
@[simp] theorem State.writeOperand_fault (j : Fin 16) (v : Word) (s : State) :
    (s.writeOperand j v).fault = s.fault := rfl
@[simp] theorem State.writeOperand_ph (j : Fin 16) (v : Word) (s : State) : (s.writeOperand j v).ph = s.ph := rfl
@[simp] theorem State.writeOperand_cfg (j : Fin 16) (v : Word) (s : State) : (s.writeOperand j v).cfg = s.cfg := rfl
@[simp] theorem State.writeOperand_ledger (j : Fin 16) (v : Word) (s : State) :
    (s.writeOperand j v).ledger = s.ledger := rfl
@[simp] theorem State.writeOperand_led (j : Fin 16) (v : Word) (s : State) : (s.writeOperand j v).led = s.led := rfl
@[simp] theorem State.writeOperand_cfs (j : Fin 16) (v : Word) (s : State) : (s.writeOperand j v).cfs = s.cfs := rfl
@[simp] theorem State.writeOperand_seq (j : Fin 16) (v : Word) (s : State) : (s.writeOperand j v).seq = s.seq := rfl
@[simp] theorem State.writeOperand_A (j : Fin 16) (v : Word) (s : State) : (s.writeOperand j v).A = s.A.set j v := rfl
@[simp] theorem State.writeOperand_R (j : Fin 16) (v : Word) (s : State) : (s.writeOperand j v).R = s.R := rfl
@[simp] theorem State.writeOperand_rc (j : Fin 16) (v : Word) (s : State) : (s.writeOperand j v).rc = s.rc := rfl
@[simp] theorem State.writeOperand_trace (j : Fin 16) (v : Word) (s : State) :
    (s.writeOperand j v).trace = s.trace := rfl
@[simp] theorem State.writeOperand_par (j : Fin 16) (v : Word) (s : State) : (s.writeOperand j v).par = s.par := rfl
@[simp] theorem State.writeOperand_num (j : Fin 16) (v : Word) (s : State) : (s.writeOperand j v).num = s.num := rfl
@[simp] theorem State.writeOperand_smp (j : Fin 16) (v : Word) (s : State) : (s.writeOperand j v).smp = s.smp := rfl
@[simp] theorem State.writeOperand_rdata (j : Fin 16) (v : Word) (s : State) :
    (s.writeOperand j v).rdata = s.rdata := rfl
@[simp] theorem State.writeOperand_inbox (j : Fin 16) (v : Word) (s : State) :
    (s.writeOperand j v).inbox = s.inbox := rfl

/-! ## `State.startAdc` -/

@[simp] theorem State.startAdc_ctrl (s : State) : (s.startAdc).ctrl = { s.ctrl with adcEn := true } := rfl
@[simp] theorem State.startAdc_fault (s : State) : (s.startAdc).fault = s.fault := rfl
@[simp] theorem State.startAdc_ph (s : State) : (s.startAdc).ph = s.ph := rfl
@[simp] theorem State.startAdc_cfg (s : State) : (s.startAdc).cfg = s.cfg := rfl
@[simp] theorem State.startAdc_ledger (s : State) : (s.startAdc).ledger = s.ledger := rfl
@[simp] theorem State.startAdc_led (s : State) : (s.startAdc).led = s.led := rfl
@[simp] theorem State.startAdc_cfs (s : State) : (s.startAdc).cfs = s.cfs := rfl
@[simp] theorem State.startAdc_seq (s : State) : (s.startAdc).seq = s.seq := rfl
@[simp] theorem State.startAdc_A (s : State) : (s.startAdc).A = s.A := rfl
@[simp] theorem State.startAdc_R (s : State) : (s.startAdc).R = s.R := rfl
@[simp] theorem State.startAdc_rc (s : State) : (s.startAdc).rc = s.rc := rfl
@[simp] theorem State.startAdc_trace (s : State) : (s.startAdc).trace = s.trace ++ [.adcStart] := rfl
@[simp] theorem State.startAdc_par (s : State) : (s.startAdc).par = s.par := rfl
@[simp] theorem State.startAdc_num (s : State) : (s.startAdc).num = s.num := rfl
@[simp] theorem State.startAdc_smp (s : State) : (s.startAdc).smp = s.smp := rfl
@[simp] theorem State.startAdc_rdata (s : State) : (s.startAdc).rdata = s.rdata := rfl
@[simp] theorem State.startAdc_inbox (s : State) : (s.startAdc).inbox = s.inbox := rfl

/-! ## `State.stopAdc` -/

@[simp] theorem State.stopAdc_ctrl (s : State) : (s.stopAdc).ctrl = { s.ctrl with adcEn := false } := rfl
@[simp] theorem State.stopAdc_fault (s : State) : (s.stopAdc).fault = s.fault := rfl
@[simp] theorem State.stopAdc_ph (s : State) : (s.stopAdc).ph = s.ph := rfl
@[simp] theorem State.stopAdc_cfg (s : State) : (s.stopAdc).cfg = s.cfg := rfl
@[simp] theorem State.stopAdc_ledger (s : State) : (s.stopAdc).ledger = s.ledger := rfl
@[simp] theorem State.stopAdc_led (s : State) : (s.stopAdc).led = s.led := rfl
@[simp] theorem State.stopAdc_cfs (s : State) : (s.stopAdc).cfs = s.cfs := rfl
@[simp] theorem State.stopAdc_seq (s : State) : (s.stopAdc).seq = s.seq := rfl
@[simp] theorem State.stopAdc_A (s : State) : (s.stopAdc).A = s.A := rfl
@[simp] theorem State.stopAdc_R (s : State) : (s.stopAdc).R = s.R := rfl
@[simp] theorem State.stopAdc_rc (s : State) : (s.stopAdc).rc = s.rc := rfl
@[simp] theorem State.stopAdc_trace (s : State) : (s.stopAdc).trace = s.trace ++ [.adcStop] := rfl
@[simp] theorem State.stopAdc_par (s : State) : (s.stopAdc).par = s.par := rfl
@[simp] theorem State.stopAdc_num (s : State) : (s.stopAdc).num = s.num := rfl
@[simp] theorem State.stopAdc_smp (s : State) : (s.stopAdc).smp = s.smp := rfl
@[simp] theorem State.stopAdc_rdata (s : State) : (s.stopAdc).rdata = s.rdata := rfl
@[simp] theorem State.stopAdc_inbox (s : State) : (s.stopAdc).inbox = s.inbox := rfl

/-! ## `State.startTmr` -/

@[simp] theorem State.startTmr_ctrl (s : State) : (s.startTmr).ctrl = { s.ctrl with tmrEn := true } := rfl
@[simp] theorem State.startTmr_fault (s : State) : (s.startTmr).fault = s.fault := rfl
@[simp] theorem State.startTmr_ph (s : State) : (s.startTmr).ph = s.ph := rfl
@[simp] theorem State.startTmr_cfg (s : State) : (s.startTmr).cfg = s.cfg := rfl
@[simp] theorem State.startTmr_ledger (s : State) : (s.startTmr).ledger = s.ledger := rfl
@[simp] theorem State.startTmr_led (s : State) : (s.startTmr).led = s.led := rfl
@[simp] theorem State.startTmr_cfs (s : State) : (s.startTmr).cfs = s.cfs := rfl
@[simp] theorem State.startTmr_seq (s : State) : (s.startTmr).seq = s.seq := rfl
@[simp] theorem State.startTmr_A (s : State) : (s.startTmr).A = s.A := rfl
@[simp] theorem State.startTmr_R (s : State) : (s.startTmr).R = s.R := rfl
@[simp] theorem State.startTmr_rc (s : State) : (s.startTmr).rc = s.rc := rfl
@[simp] theorem State.startTmr_trace (s : State) : (s.startTmr).trace = s.trace ++ [.tmrStart] := rfl
@[simp] theorem State.startTmr_par (s : State) : (s.startTmr).par = s.par := rfl
@[simp] theorem State.startTmr_num (s : State) : (s.startTmr).num = s.num := rfl
@[simp] theorem State.startTmr_smp (s : State) : (s.startTmr).smp = s.smp := rfl
@[simp] theorem State.startTmr_rdata (s : State) : (s.startTmr).rdata = s.rdata := rfl
@[simp] theorem State.startTmr_inbox (s : State) : (s.startTmr).inbox = s.inbox := rfl

/-! ## `State.stopTmr` -/

@[simp] theorem State.stopTmr_ctrl (s : State) : (s.stopTmr).ctrl = { s.ctrl with tmrEn := false } := rfl
@[simp] theorem State.stopTmr_fault (s : State) : (s.stopTmr).fault = s.fault := rfl
@[simp] theorem State.stopTmr_ph (s : State) : (s.stopTmr).ph = s.ph := rfl
@[simp] theorem State.stopTmr_cfg (s : State) : (s.stopTmr).cfg = s.cfg := rfl
@[simp] theorem State.stopTmr_ledger (s : State) : (s.stopTmr).ledger = s.ledger := rfl
@[simp] theorem State.stopTmr_led (s : State) : (s.stopTmr).led = s.led := rfl
@[simp] theorem State.stopTmr_cfs (s : State) : (s.stopTmr).cfs = s.cfs := rfl
@[simp] theorem State.stopTmr_seq (s : State) : (s.stopTmr).seq = s.seq := rfl
@[simp] theorem State.stopTmr_A (s : State) : (s.stopTmr).A = s.A := rfl
@[simp] theorem State.stopTmr_R (s : State) : (s.stopTmr).R = s.R := rfl
@[simp] theorem State.stopTmr_rc (s : State) : (s.stopTmr).rc = s.rc := rfl
@[simp] theorem State.stopTmr_trace (s : State) : (s.stopTmr).trace = s.trace ++ [.tmrStop] := rfl
@[simp] theorem State.stopTmr_par (s : State) : (s.stopTmr).par = s.par := rfl
@[simp] theorem State.stopTmr_num (s : State) : (s.stopTmr).num = s.num := rfl
@[simp] theorem State.stopTmr_smp (s : State) : (s.stopTmr).smp = s.smp := rfl
@[simp] theorem State.stopTmr_rdata (s : State) : (s.stopTmr).rdata = s.rdata := rfl
@[simp] theorem State.stopTmr_inbox (s : State) : (s.stopTmr).inbox = s.inbox := rfl

/-! ## `State.startRtc` -/

@[simp] theorem State.startRtc_ctrl (s : State) : (s.startRtc).ctrl = { s.ctrl with rtcEn := true } := rfl
@[simp] theorem State.startRtc_fault (s : State) : (s.startRtc).fault = s.fault := rfl
@[simp] theorem State.startRtc_ph (s : State) : (s.startRtc).ph = s.ph := rfl
@[simp] theorem State.startRtc_cfg (s : State) : (s.startRtc).cfg = s.cfg := rfl
@[simp] theorem State.startRtc_ledger (s : State) : (s.startRtc).ledger = s.ledger := rfl
@[simp] theorem State.startRtc_led (s : State) : (s.startRtc).led = s.led := rfl
@[simp] theorem State.startRtc_cfs (s : State) : (s.startRtc).cfs = s.cfs := rfl
@[simp] theorem State.startRtc_seq (s : State) : (s.startRtc).seq = s.seq := rfl
@[simp] theorem State.startRtc_A (s : State) : (s.startRtc).A = s.A := rfl
@[simp] theorem State.startRtc_R (s : State) : (s.startRtc).R = s.R := rfl
@[simp] theorem State.startRtc_rc (s : State) : (s.startRtc).rc = s.rc := rfl
@[simp] theorem State.startRtc_trace (s : State) : (s.startRtc).trace = s.trace ++ [.rtcStart] := rfl
@[simp] theorem State.startRtc_par (s : State) : (s.startRtc).par = s.par := rfl
@[simp] theorem State.startRtc_num (s : State) : (s.startRtc).num = s.num := rfl
@[simp] theorem State.startRtc_smp (s : State) : (s.startRtc).smp = s.smp := rfl
@[simp] theorem State.startRtc_rdata (s : State) : (s.startRtc).rdata = s.rdata := rfl
@[simp] theorem State.startRtc_inbox (s : State) : (s.startRtc).inbox = s.inbox := rfl

/-! ## `State.stopRtc` -/

@[simp] theorem State.stopRtc_ctrl (s : State) : (s.stopRtc).ctrl = { s.ctrl with rtcEn := false } := rfl
@[simp] theorem State.stopRtc_fault (s : State) : (s.stopRtc).fault = s.fault := rfl
@[simp] theorem State.stopRtc_ph (s : State) : (s.stopRtc).ph = s.ph := rfl
@[simp] theorem State.stopRtc_cfg (s : State) : (s.stopRtc).cfg = s.cfg := rfl
@[simp] theorem State.stopRtc_ledger (s : State) : (s.stopRtc).ledger = s.ledger := rfl
@[simp] theorem State.stopRtc_led (s : State) : (s.stopRtc).led = s.led := rfl
@[simp] theorem State.stopRtc_cfs (s : State) : (s.stopRtc).cfs = s.cfs := rfl
@[simp] theorem State.stopRtc_seq (s : State) : (s.stopRtc).seq = s.seq := rfl
@[simp] theorem State.stopRtc_A (s : State) : (s.stopRtc).A = s.A := rfl
@[simp] theorem State.stopRtc_R (s : State) : (s.stopRtc).R = s.R := rfl
@[simp] theorem State.stopRtc_rc (s : State) : (s.stopRtc).rc = s.rc := rfl
@[simp] theorem State.stopRtc_trace (s : State) : (s.stopRtc).trace = s.trace ++ [.rtcStop] := rfl
@[simp] theorem State.stopRtc_par (s : State) : (s.stopRtc).par = s.par := rfl
@[simp] theorem State.stopRtc_num (s : State) : (s.stopRtc).num = s.num := rfl
@[simp] theorem State.stopRtc_smp (s : State) : (s.stopRtc).smp = s.smp := rfl
@[simp] theorem State.stopRtc_rdata (s : State) : (s.stopRtc).rdata = s.rdata := rfl
@[simp] theorem State.stopRtc_inbox (s : State) : (s.stopRtc).inbox = s.inbox := rfl

/-! ## The hard reset and the registration value of a slot -/

@[simp] theorem Slot.hardReset_coef (p : Slot) : p.hardReset.coef = p.coef := rfl
@[simp] theorem Slot.hardReset_ang (p : Slot) : p.hardReset.ang = p.ang := rfl
@[simp] theorem Slot.hardReset_sig (p : Slot) : p.hardReset.sig = ⟨false, false, false⟩ := rfl
@[simp] theorem Slot.hardReset_status (p : Slot) : p.hardReset.status = PhaseStatus.cleared := rfl
@[simp] theorem Slot.hardReset_zc (p : Slot) : p.hardReset.zc = ⟨0, false, false, 0⟩ := rfl
@[simp] theorem Slot.hardReset_live (p : Slot) : p.hardReset.live = Accum.cleared := rfl
@[simp] theorem Slot.hardReset_snap (p : Slot) : p.hardReset.snap = Accum.cleared := rfl
@[simp] theorem Slot.hardReset_ws (p : Slot) : p.hardReset.ws = ⟨0, 0, 0⟩ := rfl
@[simp] theorem Slot.hardReset_meas (p : Slot) : p.hardReset.meas = Meas.cleared := rfl
@[simp] theorem Slot.hardReset_eu (p : Slot) : p.hardReset.eu = EnergyUnits.cleared := rfl

/-- Registration is the registration coefficients and angle state under hard reset (R45, R205). -/
theorem Slot.registration_hardReset (N : NumStructure) : (Slot.registration N).hardReset = Slot.registration N := rfl

/-! ## The LED file -/

@[simp] theorem Leds.get_put_same (l : LedId) (x : Led) (d : Leds) : (d.put l x).get l = x := by cases l <;> rfl

theorem Leds.get_put_other {l m : LedId} (h : m ≠ l) (x : Led) (d : Leds) : (d.put l x).get m = d.get m := by
  cases l <;> cases m <;> first | rfl | exact absurd rfl h

end Sys2Proof.Machine
end

