-- ==== Sys2Proof/Laws/Ops.lean ====
section
/-! SUPPORT. Once for each shared operation of `Machine/Ops.lean`: everything it can do. Later proofs cite these and do
not unfold the operations. -/

namespace Sys2Proof.Machine

/-! ## `store_N` (R8) -/

/-- An exact value in the range of an unsigned field is stored as it is. -/
theorem storeUnsigned_of_lt {w n : Nat} (h : n < 2 ^ w) : storeUnsigned w (n : Int) = ⟨n, false⟩ := by
  have hr : (0 : Int) ≤ n ∧ (n : Int) < 2 ^ w := ⟨by omega, by exact_mod_cast h⟩
  simp only [storeUnsigned, if_pos hr, Int.toNat_natCast]

/-- An exact value past the range of an unsigned field wraps and sets the fault. -/
theorem storeUnsigned_of_le {w n : Nat} (h : 2 ^ w ≤ n) : storeUnsigned w (n : Int) = ⟨n % 2 ^ w, true⟩ := by
  have hr : ¬((0 : Int) ≤ n ∧ (n : Int) < 2 ^ w) := by
    intro hc
    have : n < 2 ^ w := by exact_mod_cast hc.2
    omega
  have hm : ((n : Int) % 2 ^ w).toNat = n % 2 ^ w := by
    rw [show ((n : Int) % 2 ^ w) = ((n % 2 ^ w : Nat) : Int) by push_cast; rfl, Int.toNat_natCast]
  simp only [storeUnsigned, if_neg hr, hm]

/-- A counter below its last value is incremented. -/
theorem storeUnsigned_succ_of_lt {w n : Nat} (h : n + 1 < 2 ^ w) :
    storeUnsigned w ((n : Int) + 1) = ⟨n + 1, false⟩ := by
  have := storeUnsigned_of_lt h
  push_cast at this
  exact this

/-- A counter at its last value, or past it, wraps and sets the fault. -/
theorem storeUnsigned_succ_of_le {w n : Nat} (h : 2 ^ w ≤ n + 1) :
    storeUnsigned w ((n : Int) + 1) = ⟨(n + 1) % 2 ^ w, true⟩ := by
  have := storeUnsigned_of_le h
  push_cast at this
  exact this

/-- A positive counter is decremented. -/
theorem storeUnsigned_pred {w n : Nat} (h0 : 1 ≤ n) (h : n ≤ 2 ^ w) :
    storeUnsigned w ((n : Int) - 1) = ⟨n - 1, false⟩ := by
  have := storeUnsigned_of_lt (w := w) (n := n - 1) (by omega)
  rw [Int.natCast_sub h0] at this
  exact this

/-- What an unsigned field receives is in its range. -/
theorem storeUnsigned_val_lt (w : Nat) (v : Int) : (storeUnsigned w v).val < 2 ^ w := by
  have hp : (0 : Int) < 2 ^ w := by positivity
  have hm := Int.emod_lt_of_pos v hp
  have hn := Int.emod_nonneg v hp.ne'
  unfold storeUnsigned
  zify
  split <;> dsimp only <;> omega

/-- A store that sets no fault stored the exact value. -/
theorem storeUnsigned_of_ovf_false {w : Nat} {v : Int} (h : (storeUnsigned w v).ovf = false) :
    ((storeUnsigned w v).val : Int) = v := by
  by_cases hr : 0 ≤ v ∧ v < 2 ^ w
  · simp only [storeUnsigned, if_pos hr, Int.toNat_of_nonneg hr.1]
  · simp [storeUnsigned, if_neg hr] at h

theorem fitsSigned_iff (w : Nat) (v : Int) :
    fitsSigned w v = true ↔ -(2 ^ (w - 1)) ≤ v ∧ v < 2 ^ (w - 1) := by simp [fitsSigned]

/-- An exact value in the range of a signed field is stored as it is. -/
theorem storeSigned_of_fits {w : Nat} {v : Int} (h : fitsSigned w v = true) : storeSigned w v = ⟨v, false⟩ := by
  simp only [storeSigned, if_pos ((fitsSigned_iff w v).1 h)]

/-- Any other value sets the fault. -/
theorem storeSigned_ovf {w : Nat} {v : Int} (h : fitsSigned w v = false) : (storeSigned w v).ovf = true := by
  have hr : ¬(-(2 ^ (w - 1)) ≤ v ∧ v < 2 ^ (w - 1)) := by rw [← fitsSigned_iff, h]; simp
  simp only [storeSigned, if_neg hr]

/-- A store that sets no fault stored the exact value. -/
theorem storeSigned_of_ovf_false {w : Nat} {v : Int} (h : (storeSigned w v).ovf = false) :
    (storeSigned w v).val = v := by
  rcases hf : fitsSigned w v
  · rw [storeSigned_ovf hf] at h; cases h
  · rw [storeSigned_of_fits hf]

/-- What a signed field receives is in its range. -/
theorem storeSigned_val_fits {w : Nat} (hw : 1 ≤ w) (v : Int) : fitsSigned w (storeSigned w v).val = true := by
  obtain ⟨u, rfl⟩ : ∃ u, w = u + 1 := ⟨w - 1, by omega⟩
  rw [fitsSigned_iff, Nat.add_sub_cancel]
  by_cases hr : -(2 ^ u) ≤ v ∧ v < 2 ^ u
  · simp only [storeSigned, Nat.add_sub_cancel, if_pos hr]; exact hr
  · have hp : (0 : Int) < 2 ^ (u + 1) := by positivity
    have hn := Int.emod_nonneg (v + 2 ^ u) hp.ne'
    have hm := Int.emod_lt_of_pos (v + 2 ^ u) hp
    have h2 : (2 : Int) ^ (u + 1) = 2 * 2 ^ u := by ring
    simp only [storeSigned, Nat.add_sub_cancel, if_neg hr]
    omega

/-! ## Slots (R26) -/

/-- A slot number with a slot behind it is below the number of slots. -/
theorem lt_of_slot {s : State} {k : Nat} {p : Slot} (h : s.ph[k]? = some p) : k < s.ph.length :=
  (List.getElem?_eq_some_iff.1 h).1

/-- An operation on a registered slot: the slot's new contents and the overflow it records. -/
theorem updateSlot_some {s : State} {k : Nat} {p : Slot} (h : s.ph[k]? = some p) (f : Slot → Stored Slot) :
    s.updateSlot k f =
      { s with ph := s.ph.set k (f p).val, fault := { s.fault with ovf := s.fault.ovf || (f p).ovf } } := by
  simp only [State.updateSlot, h, State.setSlot, State.noteOvf]

/-- An operation on an unregistered slot changes nothing. -/
theorem updateSlot_none {s : State} {k : Nat} (h : s.ph[k]? = none) (f : Slot → Stored Slot) :
    s.updateSlot k f = s := by simp only [State.updateSlot, h]

/-- Whatever the slot, an operation on it keeps every field but `ph` and `fault`, and the number of slots. -/
theorem updateSlot_frame (s : State) (k : Nat) (f : Slot → Stored Slot) :
    ∃ ph ovf, s.updateSlot k f = { s with ph := ph, fault := { s.fault with ovf := s.fault.ovf || ovf } } ∧
      ph.length = s.ph.length ∧ ∀ j, j ≠ k → ph[j]? = s.ph[j]? := by
  rcases h : s.ph[k]? with _ | p
  · exact ⟨s.ph, false, by rw [updateSlot_none h, Bool.or_false], rfl, fun _ _ => rfl⟩
  · exact ⟨_, _, updateSlot_some h f, by simp, fun j hj => by simp [List.getElem?_set_ne (Ne.symm hj)]⟩

/-! ## Response registers (R22, R82) -/

/-- Which registers a list of results written from register `i` on reaches. -/
theorem writeFrom_getElem (l : List Word) (i : Nat) (r : Vector Word 16) (j : Nat) (hj : j < 16) :
    (writeFrom i l r)[j] = if h : i ≤ j ∧ j < i + l.length then l[j - i]'(by omega) else r[j] := by
  induction l generalizing i r with
  | nil =>
    rw [dif_neg (by simp)]
    rfl
  | cons a l ih =>
    simp only [writeFrom, ih, List.length_cons]
    by_cases h : i + 1 ≤ j ∧ j < i + 1 + l.length
    · rw [dif_pos h, dif_pos (by omega)]
      simp only [show j - i = (j - (i + 1)) + 1 by omega, List.getElem_cons_succ]
    · rw [dif_neg h]
      by_cases hij : i = j
      · subst hij; simp
      · rw [dif_neg (by omega)]; simp [hij]

/-- Writing the same results again changes nothing. -/
theorem writeFrom_writeFrom (l : List Word) (i : Nat) (r : Vector Word 16) :
    writeFrom i l (writeFrom i l r) = writeFrom i l r := by
  ext j hj
  rw [writeFrom_getElem, writeFrom_getElem]
  split <;> rfl

/-- A command without results. -/
theorem respond_nil (s : State) : s.respond [] = { s with rc := .ok } := rfl

/-- A command with one result. -/
theorem respond_one (w : Word) (s : State) : s.respond [w] = { s with R := s.R.set 0 w, rc := .ok } := by
  have h : writeFrom 0 [w] s.R = s.R.set 0 w := by
    ext j hj
    simp [writeFrom, Vector.getElem_set, Vector.getElem_setIfInBounds]
  simp only [State.respond, h]

/-! ## Host commands (R200) -/

@[simp] theorem firstFailure_nil : firstFailure [] = none := rfl

@[simp] theorem firstFailure_cons (b : Bool) (rc : ResultCode) (l : List (Bool × ResultCode)) :
    firstFailure ((b, rc) :: l) = if b then some rc else firstFailure l := rfl

/-- No check fails when each check passes. -/
theorem firstFailure_eq_none (l : List (Bool × ResultCode)) : firstFailure l = none ↔ ∀ x ∈ l, x.1 = false := by
  induction l with
  | nil => simp
  | cons x l ih =>
    obtain ⟨b, rc⟩ := x
    cases b <;> simp [ih]

/-- A command whose checks all pass has its effect and its results. -/
theorem hostCommand_passes {checks : List (Bool × ResultCode)} (h : firstFailure checks = none)
    (after : State) (results : List Word) (s : State) :
    hostCommand checks after results s = .next (after.respond results) := by simp only [hostCommand, h]

/-- A command with a failing check changes only `RC`. -/
theorem hostCommand_fails {checks : List (Bool × ResultCode)} {rc : ResultCode} (h : firstFailure checks = some rc)
    (after : State) (results : List Word) (s : State) :
    hostCommand checks after results s = .next { s with rc := rc } := by simp only [hostCommand, h]; rfl

/-- The two ends of a command. -/
theorem hostCommand_cases (checks : List (Bool × ResultCode)) (after : State) (results : List Word) (s : State) :
    (firstFailure checks = none ∧ hostCommand checks after results s = .next (after.respond results)) ∨
    ∃ rc, firstFailure checks = some rc ∧ hostCommand checks after results s = .next { s with rc := rc } := by
  rcases h : firstFailure checks with _ | rc
  · exact .inl ⟨rfl, hostCommand_passes h ..⟩
  · exact .inr ⟨rc, rfl, hostCommand_fails h ..⟩

/-- A read of a registered slot answers its words. -/
theorem readSlotCommand_some {s : State} {k : Nat} {p : Slot} (h : s.ph[k]? = some p) (words : Slot → List Word) :
    readSlotCommand k words s = .next (s.respond (words p)) := by
  simp only [readSlotCommand, h]; exact hostCommand_passes rfl ..

/-- A read of an unregistered slot gives `ERR_PHASE`. -/
theorem readSlotCommand_none {s : State} {k : Nat} (h : s.ph[k]? = none) (words : Slot → List Word) :
    readSlotCommand k words s = .next { s with rc := .errPhase } := by
  simp only [readSlotCommand, h]; exact hostCommand_fails rfl ..

/-! ## LEDs and the ledger (R186 to R188) -/

@[simp] theorem Leds.get_put_self (l : LedId) (x : Led) (d : Leds) : (d.put l x).get l = x := by cases l <;> rfl

theorem Leds.get_put_ne {l m : LedId} (h : m ≠ l) (x : Led) (d : Leds) : (d.put l x).get m = d.get m := by
  cases l <;> cases m <;> first | rfl | exact absurd rfl h

/-- One LED of LED_DECAY, its counter below the last value of its width. -/
theorem decayLed_eq (l : LedId) (s : State) (h : (s.led.get l).cnt + 1 < 2 ^ 32) :
    s.decayLed l =
      { s with
        led := s.led.put l (agedLed s.cfg.ledOnCount (s.led.get l))
        trace := s.trace ++ decayRequests s.cfg.ledOnCount l (s.led.get l) } := by
  unfold State.decayLed agedLed decayRequests
  dsimp only
  rw [storeUnsigned_succ_of_lt h]
  split_ifs <;> simp [State.setLed, State.emit, State.noteOvf, Led.off]
  cases l <;> rfl

/-- LED_DECAY of one LED changes the LEDs, the trace and `fault.OVF`, and nothing else. -/
theorem decayLed_frame (l : LedId) (s : State) :
    ∃ led requests ovf,
      s.decayLed l =
        { s with led := led, trace := s.trace ++ requests, fault := { s.fault with ovf := s.fault.ovf || ovf } } := by
  unfold State.decayLed
  dsimp only
  split_ifs
  · exact ⟨_, _, _, rfl⟩
  · exact ⟨s.led.put l ⟨true, _⟩, [], _, by rw [List.append_nil]; rfl⟩
  · exact ⟨s.led, [], false, by rw [List.append_nil, Bool.or_false]⟩

/-- LED_DECAY changes the LEDs, the trace and `fault.OVF`, and nothing else. -/
theorem ledDecay_frame (s : State) :
    ∃ led requests ovf,
      s.ledDecay =
        { s with led := led, trace := s.trace ++ requests, fault := { s.fault with ovf := s.fault.ovf || ovf } } := by
  obtain ⟨l1, r1, o1, h1⟩ := decayLed_frame .act s
  obtain ⟨l2, r2, o2, h2⟩ := decayLed_frame .react (s.decayLed .act)
  obtain ⟨l3, r3, o3, h3⟩ := decayLed_frame .app ((s.decayLed .act).decayLed .react)
  refine ⟨l3, r1 ++ r2 ++ r3, o1 || o2 || o3, ?_⟩
  rw [State.ledDecay, h3, h2, h1]
  simp only [List.append_assoc, Bool.or_assoc]

/-- ADD that reaches the meter constant. -/
theorem addEnergy_rollover (c : Category) (x : NumValue) (s : State)
    (h : s.num.le s.cfg.meterConstant (s.num.add (s.ledger.accOf c) (s.num.abs x)) = true) :
    s.addEnergy c x =
      { s with
        ledger :=
          { s.ledger with
            acc := s.ledger.acc.set c.index
              (s.num.sub (s.num.add (s.ledger.accOf c) (s.num.abs x)) s.cfg.meterConstant)
            life := s.ledger.life.set c.index ((s.ledger.lifeOf c + 1) % 2 ^ s.par.lifeW) }
        led := s.led.put (c.ledOf s.par.appExpLedQuirk) ⟨true, 0⟩
        trace := s.trace ++ [(c.ledOf s.par.appExpLedQuirk).onRequest] } := by
  simp only [State.addEnergy, if_pos h]; rfl

/-- ADD that stays below the meter constant. -/
theorem addEnergy_below (c : Category) (x : NumValue) (s : State)
    (h : s.num.le s.cfg.meterConstant (s.num.add (s.ledger.accOf c) (s.num.abs x)) = false) :
    s.addEnergy c x =
      { s with
        ledger :=
          { s.ledger with acc := s.ledger.acc.set c.index (s.num.add (s.ledger.accOf c) (s.num.abs x)) } } := by
  simp only [State.addEnergy, h]; rfl

/-- ADD changes the ledger's accumulators and lifetime counters, the LEDs and the trace, and nothing else. -/
theorem addEnergy_frame (c : Category) (x : NumValue) (s : State) :
    ∃ acc life led requests,
      s.addEnergy c x =
        { s with
          ledger := { s.ledger with acc := acc, life := life }
          led := led
          trace := s.trace ++ requests } := by
  rcases h : s.num.le s.cfg.meterConstant (s.num.add (s.ledger.accOf c) (s.num.abs x))
  · exact ⟨_, s.ledger.life, s.led, [], by rw [addEnergy_below c x s h, List.append_nil]⟩
  · exact ⟨_, _, _, _, addEnergy_rollover c x s h⟩

/-- The four quadrants of ENERGY_ROUTE: three ADDs each. -/
theorem energyRoute_cases (s : State) :
    ∃ c1 c2 c3 : Category,
      s.energyRoute =
        ((s.addEnergy c1 s.ledger.unit.act).addEnergy c2 s.ledger.unit.app).addEnergy c3 s.ledger.unit.react := by
  unfold State.energyRoute
  dsimp only
  split <;> split <;> exact ⟨_, _, _, rfl⟩

/-- ENERGY_ROUTE changes the ledger's accumulators and lifetime counters, the LEDs and the trace, and nothing else. -/
theorem energyRoute_frame (s : State) :
    ∃ acc life led requests,
      s.energyRoute =
        { s with
          ledger := { s.ledger with acc := acc, life := life }
          led := led
          trace := s.trace ++ requests } := by
  obtain ⟨c1, c2, c3, h⟩ := energyRoute_cases s
  obtain ⟨a1, n1, l1, r1, h1⟩ := addEnergy_frame c1 s.ledger.unit.act s
  obtain ⟨a2, n2, l2, r2, h2⟩ := addEnergy_frame c2 s.ledger.unit.app (s.addEnergy c1 s.ledger.unit.act)
  obtain ⟨a3, n3, l3, r3, h3⟩ :=
    addEnergy_frame c3 s.ledger.unit.react ((s.addEnergy c1 s.ledger.unit.act).addEnergy c2 s.ledger.unit.app)
  refine ⟨a3, n3, l3, r1 ++ r2 ++ r3, ?_⟩
  rw [h, h3, h2, h1]
  simp only [List.append_assoc]

end Sys2Proof.Machine
end

