-- ==== Sys2Proof/Laws/Slot.lean ====
section
/-! SUPPORT. Once for each operation on one slot: everything it can do. -/

namespace Sys2Proof.Machine

/-! ## Zero-cross detector (R101) -/

theorem detectCrossing_counted {cycW : Nat} {v : Int} {z : ZeroCross} (h : z.crosses v = true) (hs : z.synced = true) :
    detectCrossing cycW v z =
      ⟨⟨v, true, true, (storeUnsigned cycW ((z.cyc : Int) + 1)).val⟩,
        (storeUnsigned cycW ((z.cyc : Int) + 1)).ovf⟩ := by
  simp only [detectCrossing, h, hs, if_true]

theorem detectCrossing_first {cycW : Nat} {v : Int} {z : ZeroCross} (h : z.crosses v = true) (hs : z.synced = false) :
    detectCrossing cycW v z = ⟨⟨v, true, true, 0⟩, false⟩ := by
  simp only [detectCrossing, h, hs, if_true]; rfl

theorem detectCrossing_none {cycW : Nat} {v : Int} {z : ZeroCross} (h : z.crosses v = false) :
    detectCrossing cycW v z = ⟨⟨v, false, z.synced, z.cyc⟩, false⟩ := by
  simp only [detectCrossing, h]; rfl

/-- What the detector leaves, whatever the sample: the sample itself, a debounce flag that tells of the crossing, a
synchronised flag that is never cleared, and a cycle counter in its width. -/
theorem detectCrossing_val (cycW : Nat) (v : Int) (z : ZeroCross) :
    (detectCrossing cycW v z).val.last = v ∧ (detectCrossing cycW v z).val.debounce = z.crosses v ∧
    (z.synced = true → (detectCrossing cycW v z).val.synced = true) ∧
    (z.cyc < 2 ^ cycW → (detectCrossing cycW v z).val.cyc < 2 ^ cycW) := by
  rcases h : z.crosses v
  · rw [detectCrossing_none h]; exact ⟨rfl, rfl, id, id⟩
  · rcases hs : z.synced
    · rw [detectCrossing_first h hs]; exact ⟨rfl, rfl, fun _ => rfl, fun _ => Nat.two_pow_pos _⟩
    · rw [detectCrossing_counted h hs]; exact ⟨rfl, rfl, fun _ => rfl, fun _ => storeUnsigned_val_lt ..⟩

/-- A crossing needs a positive sample. -/
theorem crosses_pos {v : Int} {z : ZeroCross} (h : z.crosses v = true) : 0 < v := by
  simp [ZeroCross.crosses] at h; exact h.2

/-! ## Accumulation (R111 to R113) -/

/-- An accumulation that sets no fault stores the exact sums. -/
theorem accumulate_exact {par : Params} {t : Triple} {a : Accum} (h : (a.accumulate par t).ovf = false) :
    (a.accumulate par t).val =
      ⟨a.vacc + t.v * t.v, a.iacc + t.i * t.i, a.pacc + t.v * t.i, a.qacc + t.v90 * t.i, a.n + 1⟩ := by
  simp only [Accum.accumulate, Bool.or_eq_false_iff] at h
  obtain ⟨⟨⟨⟨h1, h2⟩, h3⟩, h4⟩, h5⟩ := h
  have h6 := storeUnsigned_of_ovf_false h5
  simp only [Accum.accumulate, storeSigned_of_ovf_false h1, storeSigned_of_ovf_false h2, storeSigned_of_ovf_false h3,
    storeSigned_of_ovf_false h4, Accum.mk.injEq, true_and]
  omega

/-- Whatever is accumulated, the fields stay in their widths. -/
theorem accumulate_fits {par : Params} (hw : 1 ≤ par.accW) (t : Triple) (a : Accum) :
    (a.accumulate par t).val.Fits par :=
  ⟨storeSigned_val_fits hw _, storeSigned_val_fits hw _, storeSigned_val_fits hw _, storeSigned_val_fits hw _,
    storeUnsigned_val_lt ..⟩

/-! ## The window (R114) -/

/-- Closing a window keeps all but the snapshot, the ready flag, the live accumulators and the cycle counter. -/
theorem closeWindow_eq (p : Slot) :
    p.closeWindow =
      { p with
        snap := p.live
        sig := { p.sig with accReady := true }
        live := p.ws.contribution
        zc := { p.zc with cyc := 0 } } := rfl

/-- The three ways PHASE_SAMPLE can go: not synchronised, accumulated, accumulated and the window closed. -/
theorem phaseSample_cases (par : Params) (ui : Nat) (p : Slot) (z : Stored ZeroCross) (a : Stored Accum)
    (hz : z = detectCrossing par.cycW p.ws.v p.zc) (ha : a = p.live.accumulate par p.ws) :
    (z.val.synced = false ∧ p.phaseSample par ui = ⟨{ p with zc := z.val }, z.ovf⟩) ∨
    (z.val.synced = true ∧ z.val.cyc < ui ∧
      p.phaseSample par ui = ⟨{ p with zc := z.val, live := a.val }, z.ovf || a.ovf⟩) ∨
    (z.val.synced = true ∧ ui ≤ z.val.cyc ∧
      p.phaseSample par ui =
        ⟨{ p with
            zc := { z.val with cyc := 0 }
            live := p.ws.contribution
            snap := a.val
            sig := { p.sig with accReady := true } }, z.ovf || a.ovf⟩) := by
  subst hz ha
  rcases hs : (detectCrossing par.cycW p.ws.v p.zc).val.synced
  · refine .inl ⟨rfl, ?_⟩
    simp only [Slot.phaseSample, hs, Bool.false_eq_true, if_false]
  · refine .inr ?_
    by_cases hc : ui ≤ (detectCrossing par.cycW p.ws.v p.zc).val.cyc
    · refine .inr ⟨rfl, hc, ?_⟩
      unfold Slot.phaseSample Slot.accAccumulate
      dsimp only
      rw [if_pos hs, if_pos hc, closeWindow_eq]
    · refine .inl ⟨rfl, by omega, ?_⟩
      unfold Slot.phaseSample Slot.accAccumulate
      dsimp only
      rw [if_pos hs, if_neg hc]

/-- Whatever the sample, PHASE_SAMPLE keeps all but the tracker, the accumulators, the snapshot and the ready flag,
which it never clears; the tracker holds the sample, and a debounce flag that tells of a crossing. -/
theorem phaseSample_frame (par : Params) (ui : Nat) (p : Slot) :
    ∃ zc live snap ready ovf,
      p.phaseSample par ui =
        ⟨{ p with zc := zc, live := live, snap := snap, sig := { p.sig with accReady := ready } }, ovf⟩ ∧
      zc.last = p.ws.v ∧ zc.debounce = p.zc.crosses p.ws.v ∧ (p.sig.accReady = true → ready = true) ∧
      (p.zc.cyc < 2 ^ par.cycW → zc.cyc < 2 ^ par.cycW) := by
  obtain ⟨h1, h2, _, h4⟩ := detectCrossing_val par.cycW p.ws.v p.zc
  obtain ⟨_, h⟩ | ⟨_, _, h⟩ | ⟨_, _, h⟩ := phaseSample_cases par ui p _ _ rfl rfl
  · exact ⟨_, p.live, p.snap, p.sig.accReady, _, h, h1, h2, id, h4⟩
  · exact ⟨_, _, p.snap, p.sig.accReady, _, h, h1, h2, id, h4⟩
  · exact ⟨_, _, _, true, _, h, h1, h2, fun _ => rfl, fun _ => Nat.two_pow_pos _⟩

/-- Hard reset keeps the coefficients and the angle working state and nothing else (R116). -/
theorem hardReset_eq (p : Slot) : p.hardReset = Slot.blank p.coef ⟨false, false, false⟩ p.ang := rfl

/-- The registration value of a slot (R45). -/
theorem registration_eq (N : NumStructure) :
    Slot.registration N =
      Slot.blank ⟨N.one, N.one, N.one, NumValue.zero⟩ ⟨false, false, false⟩
        ⟨0, 0, NumValue.zero, NumValue.zero, 0, .none⟩ := rfl

/-! ## Measurement (R130 to R135) -/

/-- Sag and swell are never both set by a measurement (R133). -/
theorem setVoltage_exclusive (N : NumStructure) (vrms sag swell : NumValue) (t : PhaseStatus) :
    ¬((t.setVoltage N vrms sag swell).sag = true ∧ (t.setVoltage N vrms sag swell).swell = true) := by
  unfold PhaseStatus.setVoltage
  split_ifs <;> simp

/-- Measuring a window keeps the coefficients, the tracker, the accumulators, the workspace and the angle state; it
takes the ready flag and leaves SAG and SWELL exclusive if they were. -/
theorem measure_frame (N : NumStructure) (cfg : Cfg) (p : Slot) :
    ∃ meas status eu,
      p.measure N cfg =
        { p with
          sig := { p.sig with accReady := false, measReady := true }, meas := meas, status := status, eu := eu } ∧
      (status = p.status ∨ ¬(status.sag = true ∧ status.swell = true)) := by
  unfold Slot.measure
  dsimp only
  split
  · exact ⟨_, _, _, rfl, .inl rfl⟩
  · exact ⟨_, _, _, rfl, .inr (setVoltage_exclusive N (rms N p.snap.vacc p.snap.n p.coef.vrmsCoeff) _ _ _)⟩

/-- The timer leaves a slot whose window is not ready. -/
theorem timerTick_idle {N : NumStructure} {cfg : Cfg} {p : Slot} (h : p.sig.accReady = false) :
    p.timerTick N cfg = p := by
  simp only [Slot.timerTick, h]; rfl

/-- The timer measures a slot whose window is ready. -/
theorem timerTick_ready {N : NumStructure} {cfg : Cfg} {p : Slot} (h : p.sig.accReady = true) :
    p.timerTick N cfg = p.measure N cfg := by
  simp only [Slot.timerTick, h]; rfl

/-! ## The angle sub-mode (R151) -/

/-- Both signals cross, `a` the angle state with the fractions added. -/
theorem angleCrossing_eq (N : NumStructure) (p : Slot) (ui : Nat) (c : Stored Nat) (a : Angle)
    (ha : a =
      ⟨p.ws.v, p.ws.i, N.add p.ang.vFrac (crossingFraction N p.ws.v p.ang.lastV),
        N.add p.ang.iFrac (crossingFraction N p.ws.i p.ang.lastI), c.val, p.ang.status⟩) :
    p.angleCrossing N ui c =
      if ui < c.val then ⟨{ p with ang := { a with status := .ok }, sig := { p.sig with calAngle := false } }, c.ovf⟩
      else ⟨{ p with ang := a }, c.ovf⟩ := by
  subst ha
  rfl

/-- Both signals cross. -/
theorem angleSample_both {p : Slot} (hv : rises p.ang.lastV p.ws.v = true) (hi : rises p.ang.lastI p.ws.i = true)
    (N : NumStructure) (ui : Nat) :
    p.angleSample N ui = p.angleCrossing N ui (storeUnsigned 32 ((p.ang.cnt : Int) + 1)) := by
  simp only [Slot.angleSample, hv, hi, Bool.and_self, if_true]

/-- Exactly one signal crosses. -/
theorem angleSample_one {p : Slot} (h : rises p.ang.lastV p.ws.v ≠ rises p.ang.lastI p.ws.i)
    (N : NumStructure) (ui : Nat) :
    p.angleSample N ui =
      ⟨{ p with ang := { p.ang with status := .phaseAngleError, lastV := p.ws.v, lastI := p.ws.i } }, false⟩ := by
  rcases hv : rises p.ang.lastV p.ws.v <;> rcases hi : rises p.ang.lastI p.ws.i
  · rw [hv, hi] at h; exact absurd rfl h
  · simp [Slot.angleSample, hv, hi]
  · simp [Slot.angleSample, hv, hi]
  · rw [hv, hi] at h; exact absurd rfl h

/-- No signal crosses. -/
theorem angleSample_none {p : Slot} (hv : rises p.ang.lastV p.ws.v = false) (hi : rises p.ang.lastI p.ws.i = false)
    (N : NumStructure) (ui : Nat) :
    p.angleSample N ui = ⟨{ p with ang := { p.ang with lastV := p.ws.v, lastI := p.ws.i } }, false⟩ := by
  simp [Slot.angleSample, hv, hi]

/-- Whatever the signals, ANGLE_SAMPLE keeps all but the angle working state and the sub-mode flag, which it never
sets, and its counter stays in its width. -/
theorem angleSample_frame (N : NumStructure) (ui : Nat) (p : Slot) :
    ∃ ang cal ovf,
      p.angleSample N ui = ⟨{ p with ang := ang, sig := { p.sig with calAngle := cal } }, ovf⟩ ∧
      (cal = true → p.sig.calAngle = true) ∧ ang.lastV = p.ws.v ∧ ang.lastI = p.ws.i ∧
      (p.ang.cnt < 2 ^ 32 → ang.cnt < 2 ^ 32) := by
  rcases hv : rises p.ang.lastV p.ws.v <;> rcases hi : rises p.ang.lastI p.ws.i
  · exact ⟨_, p.sig.calAngle, _, angleSample_none hv hi N ui, id, rfl, rfl, id⟩
  · exact ⟨_, p.sig.calAngle, _, angleSample_one (by rw [hv, hi]; decide) N ui, id, rfl, rfl, id⟩
  · exact ⟨_, p.sig.calAngle, _, angleSample_one (by rw [hv, hi]; decide) N ui, id, rfl, rfl, id⟩
  · obtain ⟨c, hc⟩ : ∃ c, c = storeUnsigned 32 ((p.ang.cnt : Int) + 1) := ⟨_, rfl⟩
    have hlt : c.val < 2 ^ 32 := by rw [hc]; exact storeUnsigned_val_lt ..
    rw [angleSample_both hv hi N ui, ← hc, angleCrossing_eq N p ui c _ rfl]
    split
    · exact ⟨_, false, _, rfl, Bool.noConfusion, rfl, rfl, fun _ => hlt⟩
    · exact ⟨_, p.sig.calAngle, _, rfl, id, rfl, rfl, fun _ => hlt⟩

/-! ## The ADC step on one slot (R190) -/

theorem takeSample_angle {p : Slot} (h : p.sig.calAngle = true) (N : NumStructure) (par : Params)
    (ui : Nat) (t : Triple) :
    p.takeSample N par ui t = Slot.angleSample N ui { p with ws := t } := by
  simp only [Slot.takeSample, h]; rfl

theorem takeSample_normal {p : Slot} (h : p.sig.calAngle = false) (N : NumStructure) (par : Params)
    (ui : Nat) (t : Triple) :
    p.takeSample N par ui t = Slot.phaseSample par ui { p with ws := t } := by
  simp only [Slot.takeSample, h]; rfl

/-- Whatever the mode, EV_ADC's part for one slot keeps the coefficients, the status, the measurements, the energy units
and the ready flag of the measurements, and stores the triple. -/
theorem takeSample_frame (N : NumStructure) (par : Params) (ui : Nat) (p : Slot) (t : Triple) :
    ∃ zc live snap ready cal ang ovf,
      p.takeSample N par ui t =
        ⟨{ p with
            ws := t
            zc := zc
            live := live
            snap := snap
            sig := { p.sig with accReady := ready, calAngle := cal }
            ang := ang }, ovf⟩ ∧
      (cal = true → p.sig.calAngle = true) := by
  rcases h : p.sig.calAngle
  · obtain ⟨zc, live, snap, ready, ovf, he, _⟩ := phaseSample_frame par ui { p with ws := t }
    refine ⟨zc, live, snap, ready, p.sig.calAngle, p.ang, ovf, ?_, fun hc => by rw [h] at hc; exact hc⟩
    rw [takeSample_normal h, he]
  · obtain ⟨ang, cal, ovf, he, hc, _⟩ := angleSample_frame N ui { p with ws := t }
    refine ⟨p.zc, p.live, p.snap, p.sig.accReady, cal, ang, ovf, ?_, fun _ => rfl⟩
    rw [takeSample_angle h, he]

end Sys2Proof.Machine
end

