-- ==== Sys2Proof/Laws/Slots.lean ====
section
/-! SUPPORT. What an operation can make of one slot of the phase table, listed once: the invariants over slots are
proved by cases on this list. -/

namespace Sys2Proof.Machine

/-- What operation `i` in state `s` can make of the contents `p` of slot `k`. -/
inductive SlotChange (s : State) (i : Instr) (k : Nat) (p : Slot) : Slot → Prop where
  /-- The slot is left. -/
  | kept : SlotChange s i k p p
  /-- ZCD_DETECT (R101). -/
  | detected (hi : i = .zcdDetect k) : SlotChange s i k p { p with zc := (detectCrossing s.par.cycW p.ws.v p.zc).val }
  /-- ACC_RESET (R111). -/
  | accReset (hi : i = .accReset k) : SlotChange s i k p p.accReset
  /-- ACC_ACCUMULATE (R112). -/
  | accumulated (hi : i = .accAccumulate k) : SlotChange s i k p (p.accAccumulate s.par).val
  /-- ACC_LOAD (R113). -/
  | accLoaded (hi : i = .accLoad k) : SlotChange s i k p p.accLoad
  /-- PHASE_SAMPLE (R114). -/
  | sampled (hi : i = .phaseSample k) (hc : p.sig.calAngle = false) :
      SlotChange s i k p (p.phaseSample s.par s.cfg.updateInterval).val
  /-- HARD_RESET (R116). -/
  | reset (hi : i = .hardReset k) : SlotChange s i k p p.hardReset
  /-- MEASURE_PHASE, alone or in EV_TMR (R130, R140). -/
  | measured (hi : i = .measurePhase k ∨ i = .evTmr) (hr : p.sig.accReady = true) :
    SlotChange s i k p (p.measure s.num s.cfg)
  /-- ANGLE_ENTER (R150). -/
  | entered (hi : i = .angleEnter k) : SlotChange s i k p p.angleEnter
  /-- ANGLE_SAMPLE (R151). -/
  | angleSampled (hi : i = .angleSample k) (hc : p.sig.calAngle = true) :
      SlotChange s i k p (p.angleSample s.num s.cfg.updateInterval).val
  /-- EV_ADC with the triple `t` (R190). -/
  | adc (hi : i = .evAdc) (he : s.adcEnabled = true) (hr : s.cfs.running = false) (t : Triple)
    (ht : s.smp[k]? = some t) :
      SlotChange s i k p (p.takeSample s.num s.par s.cfg.updateInterval t).val
  /-- PHASE_LOAD_CAL (R206). -/
  | coefLoaded (hi : i = .phaseLoadCal k) (c : Coef) : SlotChange s i k p { p with coef := c }
  /-- PHASE_CALIBRATE (R162). -/
  | calibrating (lc : Nat) (hi : i = .phaseCalibrate k lc) : SlotChange s i k p p.hardReset
  /-- SEQ_STEP that enters the second stage (R171). -/
  | secondStage (hi : i = .seqStep) (hs : s.seq.state = .pcalW1) (hk : s.seq.target = k) (c : Coef) :
      SlotChange s i k p (({ p with coef := c } : Slot).hardReset.angleEnter)
  /-- SEQ_STEP that ends a phase calibration (R171, R172). -/
  | finished (hi : i = .seqStep) (hs : s.seq.state = .pcalW1 ∨ s.seq.state = .pcalW2) (hk : s.seq.target = k)
      (c : Coef) : SlotChange s i k p (({ p with coef := c } : Slot).hardReset)
  /-- MEAS_READY (R218). -/
  | taken (hi : i = .measReady k) : SlotChange s i k p { p with sig := { p.sig with measReady := false } }

/-- The phase table after an operation: each slot changed as listed, unless DEINIT emptied the table; PHASE_REGISTER may
have appended a slot at its registration value. -/
def SlotsFrom (s : State) (i : Instr) (ph : List Slot) : Prop :=
  (∀ k q, ph[k]? = some q →
    (∃ p, s.ph[k]? = some p ∧ SlotChange s i k p q) ∨
    (i = .phaseRegister ∧ k = s.ph.length ∧ k < s.par.nPhaseMax ∧ s.ctrl.init = true ∧ q = Slot.registration s.num)) ∧
  (ph.length = s.ph.length ∨ (i = .deinit ∧ ph = []) ∨
    (i = .phaseRegister ∧ ph.length = s.ph.length + 1 ∧ s.ph.length < s.par.nPhaseMax ∧ s.ctrl.init = true))

theorem slotsFrom_self (s : State) (i : Instr) : SlotsFrom s i s.ph :=
  ⟨fun _ q h => .inl ⟨q, h, .kept⟩, .inl rfl⟩

/-- One slot changed. -/
theorem slotsFrom_set {s : State} {i : Instr} {k : Nat} {p q : Slot} (hp : s.ph[k]? = some p)
    (h : SlotChange s i k p q) : SlotsFrom s i (s.ph.set k q) := by
  refine ⟨fun j r hj => .inl ?_, .inl (by simp)⟩
  by_cases hjk : k = j
  · subst hjk
    rw [List.getElem?_set_self (lt_of_slot hp)] at hj
    cases hj
    exact ⟨p, hp, h⟩
  · rw [List.getElem?_set_ne hjk] at hj
    exact ⟨r, hj, .kept⟩

/-- An operation on one slot. -/
theorem slotsFrom_updateSlot {s : State} {i : Instr} {k : Nat} {f : Slot → Stored Slot}
    (h : ∀ p, s.ph[k]? = some p → SlotChange s i k p (f p).val) : SlotsFrom s i (s.updateSlot k f).ph := by
  rcases hp : s.ph[k]? with _ | p
  · rw [updateSlot_none hp]; exact slotsFrom_self s i
  · rw [updateSlot_some hp]; exact slotsFrom_set hp (h p hp)

/-- A host command leaves the phase table of its effect, or its own. -/
theorem slotsFrom_hostCommand {s after t : State} {i : Instr} {checks : List (Bool × ResultCode)} {results : List Word}
    (h : hostCommand checks after results s = .next t)
    (ha : firstFailure checks = none → SlotsFrom s i after.ph) : SlotsFrom s i t.ph := by
  rcases hostCommand_cases checks after results s with ⟨hf, h2⟩ | ⟨rc, _, h2⟩ <;> rw [h2] at h <;> cases h
  · exact ha hf
  · exact slotsFrom_self s i

theorem slotsFrom_readSlot {s t : State} {i : Instr} {k : Nat} {words : Slot → List Word}
    (h : readSlotCommand k words s = .next t) : SlotsFrom s i t.ph := by
  unfold readSlotCommand at h
  split at h <;> exact slotsFrom_hostCommand h fun _ => slotsFrom_self s i

/-- The phase table after EV_ADC's phase processing (R190). -/
theorem slotsFrom_processPhases {s : State} (he : s.adcEnabled = true) (hr : s.cfs.running = false) :
    SlotsFrom s .evAdc s.processPhases.ph := by
  have hlen : s.smp.length = s.ph.length := by
    simp only [State.adcEnabled, State.sampleInputOk, Bool.and_eq_true, beq_iff_eq] at he
    exact he.2.1
  refine ⟨fun k q hq => .inl ?_, .inl (by simp [State.processPhases, State.sampledSlots, hlen])⟩
  simp only [State.processPhases, State.noteOvf_ph, State.sampledSlots, List.getElem?_map,
    List.getElem?_zipWith] at hq
  rcases hp : s.ph[k]? with _ | p
  · rw [hp] at hq; cases hq
  · rcases ht : s.smp[k]? with _ | t
    · rw [hp, ht] at hq; cases hq
    · rw [hp, ht] at hq; cases hq
      exact ⟨p, rfl, .adc rfl he hr t ht⟩

theorem beginPhaseCal_ph_some {s : State} {k : Nat} {p : Slot} (hp : s.ph[k]? = some p) (lc : Nat) (vt it : NumValue) :
    (s.beginPhaseCal k lc vt it).ph = s.ph.set k p.hardReset := by
  simp only [State.beginPhaseCal, State.hardResetSlot]
  rw [updateSlot_some (p := p) (by exact hp)]
  rfl

theorem beginPhaseCal_ph_none {s : State} {k : Nat} (hp : s.ph[k]? = none) (lc : Nat) (vt it : NumValue) :
    (s.beginPhaseCal k lc vt it).ph = s.ph := by
  simp only [State.beginPhaseCal, State.hardResetSlot]
  rw [updateSlot_none (by exact hp)]
  rfl

/-- What every operation makes of the phase table. -/
theorem exec_slots {i : Instr} {s t : State} (h : exec i s = .next t) : SlotsFrom s i t.ph := by
  cases i <;> simp only [exec] at h
  case zcdDetect k => cases h; exact slotsFrom_updateSlot fun p _ => .detected rfl
  case accReset k => cases h; exact slotsFrom_updateSlot fun p _ => .accReset rfl
  case accAccumulate k => cases h; exact slotsFrom_updateSlot fun p _ => .accumulated rfl
  case accLoad k => cases h; exact slotsFrom_updateSlot fun p _ => .accLoaded rfl
  case phaseSample k =>
    cases h
    refine slotsFrom_updateSlot fun p _ => ?_
    rcases hc : p.sig.calAngle
    · rw [if_neg Bool.false_ne_true]; exact .sampled rfl hc
    · rw [if_pos rfl]; exact .kept
  case hardReset k => cases h; exact slotsFrom_updateSlot fun p _ => .reset rfl
  case measurePhase k =>
    cases h
    refine slotsFrom_updateSlot fun p _ => ?_
    rcases hr : p.sig.accReady
    · rw [timerTick_idle hr]; exact .kept
    · rw [timerTick_ready hr]; exact .measured (.inl rfl) hr
  case angleEnter k => cases h; exact slotsFrom_updateSlot fun p _ => .entered rfl
  case angleSample k =>
    cases h
    refine slotsFrom_updateSlot fun p _ => ?_
    rcases hc : p.sig.calAngle
    · rw [if_neg Bool.false_ne_true]; exact .kept
    · rw [if_pos rfl]; exact .angleSampled rfl hc
  case ledDecay =>
    cases h
    obtain ⟨_, _, _, hf⟩ := ledDecay_frame s
    rw [hf]; exact slotsFrom_self s _
  case energyRoute =>
    cases h
    obtain ⟨_, _, _, _, hf⟩ := energyRoute_frame s
    rw [hf]; exact slotsFrom_self s _
  case seqStep =>
    unfold execSeqStep at h
    split at h
    · cases h; exact slotsFrom_self s _
    · cases h; exact slotsFrom_self s _
    · rename_i p hs hp
      split at h <;> cases h
      · unfold State.finishCoefficients
        dsimp only
        split
        · exact slotsFrom_set hp (.secondStage rfl hs rfl _)
        · exact slotsFrom_set hp (.finished rfl (.inl hs) rfl p.coef)
      · exact slotsFrom_self s _
    · cases h; exact slotsFrom_self s _
    · rename_i p hs hp
      split at h <;> cases h
      · exact slotsFrom_self s _
      · exact slotsFrom_set hp (.finished rfl (.inr hs) rfl _)
    · split at h <;> cases h
      · unfold State.finishGlobal
        dsimp only
        split <;> exact slotsFrom_self s _
      · exact slotsFrom_self s _
  case evAdc =>
    unfold execEvAdc at h
    split at h
    · rename_i he
      split at h
      · cases h; exact slotsFrom_self s _
      · rename_i hr
        have hpp := slotsFrom_processPhases he (Bool.not_eq_true _ ▸ hr)
        split at h <;> cases h
        · exact hpp
        · obtain ⟨_, _, _, h1⟩ := ledDecay_frame s.processPhases
          obtain ⟨_, _, _, _, h2⟩ := energyRoute_frame s.processPhases.ledDecay
          rw [h2, h1]; exact hpp
    · cases h; exact slotsFrom_self s _
  case evTmr =>
    unfold execEvTmr at h
    split at h <;> cases h
    · refine ⟨fun k q hq => .inl ?_, .inl (by simp)⟩
      rw [List.getElem?_map] at hq
      rcases hp : s.ph[k]? with _ | p
      · rw [hp] at hq; cases hq
      · rw [hp] at hq; cases hq
        refine ⟨p, rfl, ?_⟩
        rcases hr : p.sig.accReady
        · rw [timerTick_idle hr]; exact .kept
        · rw [timerTick_ready hr]; exact .measured (.inr rfl) hr
    · exact slotsFrom_self s _
  case evRtc =>
    unfold execEvRtc at h
    dsimp only at h
    split_ifs at h <;> cases h <;> exact slotsFrom_self s _
  case init =>
    unfold execInit at h
    split at h <;> exact slotsFrom_hostCommand h fun _ => slotsFrom_self s _
  case deinit =>
    refine slotsFrom_hostCommand h fun _ => ⟨fun k q hq => ?_, .inr (.inl ⟨rfl, rfl⟩)⟩
    simp [State.release] at hq
  case phaseRegister =>
    refine slotsFrom_hostCommand h fun hf => ?_
    have hc : s.ctrl.init = true ∧ s.ph.length < s.par.nPhaseMax := by
      simp [firstFailure_eq_none, initCheck, State.nPhases] at hf
      exact ⟨hf.2.1, Nat.lt_of_not_le (of_decide_eq_false hf.2.2.2)⟩
    refine ⟨fun k q hq => ?_, .inr (.inr ⟨rfl, by simp, hc.2, hc.1⟩)⟩
    rcases Nat.lt_trichotomy k s.ph.length with hk | hk | hk
    · rw [List.getElem?_append_left hk] at hq
      exact .inl ⟨q, hq, .kept⟩
    · subst hk
      rw [List.getElem?_append_right (Nat.le_refl _), Nat.sub_self] at hq
      cases hq
      exact .inr ⟨rfl, rfl, hc.2, hc.1, rfl⟩
    · rw [List.getElem?_eq_none (by simp; omega)] at hq; cases hq
  case phaseLoadCal k =>
    unfold execPhaseLoadCal at h
    split at h
    · exact slotsFrom_hostCommand h fun _ => slotsFrom_self s _
    · exact slotsFrom_hostCommand h fun _ => slotsFrom_updateSlot fun p _ => .coefLoaded rfl _
  case phaseCalibrate k lc =>
    unfold execPhaseCalibrate at h
    split at h
    · exact slotsFrom_hostCommand h fun _ => slotsFrom_self s _
    · refine slotsFrom_hostCommand h fun _ => ?_
      rcases hp : s.ph[k]? with _ | p
      · rw [beginPhaseCal_ph_none hp]; exact slotsFrom_self s _
      · rw [beginPhaseCal_ph_some hp]; exact slotsFrom_set hp (.calibrating lc rfl)
  case globalCalibrate =>
    unfold execGlobalCalibrate at h
    split at h
    · exact slotsFrom_hostCommand h fun _ => slotsFrom_self s _
    · refine slotsFrom_hostCommand h fun _ => ?_
      unfold State.beginGlobalCal State.ensureRtc
      dsimp only
      split <;> exact slotsFrom_self s _
  case energySet =>
    unfold execEnergySet at h
    split at h <;> exact slotsFrom_hostCommand h fun _ => slotsFrom_self s _
  case measReady k =>
    unfold execMeasReady at h
    split at h
    · exact slotsFrom_hostCommand h fun _ => slotsFrom_self s _
    · rename_i p hp
      exact slotsFrom_hostCommand h fun _ => slotsFrom_set hp (.taken rfl)
  all_goals first | exact slotsFrom_readSlot h | exact slotsFrom_hostCommand h fun _ => slotsFrom_self s _

end Sys2Proof.Machine
end

