-- ==== Sys2Proof/Laws/Control.lean ====
section
/-! SUPPORT. What an operation can make of the control state (`ctrl`, `cfg`, `cfs`, `seq`), listed once: the invariants
over the control state are proved by cases on this list. -/

namespace Sys2Proof.Machine

/-- What operation `i` in state `s` can make of `ctrl`, `cfg`, `cfs` and `seq`. -/
inductive ControlChange (s : State) (i : Instr) : Ctrl → Cfg → Cfs → Seq → Prop where
  /-- All four are left. -/
  | kept : ControlChange s i s.ctrl s.cfg s.cfs s.seq
  /-- INIT (R201). -/
  | configured (hi : i = .init) (hb : s.busy = false) (hq : s.ctrl.adcEn = false ∧ s.ctrl.tmrEn = false) (c : Cfg)
      (hc : readCfg s.num s.A = some c) : ControlChange s i { s.ctrl with init := true } c s.cfs s.seq
  /-- DEINIT (R202). -/
  | released (hi : i = .deinit) (hb : s.busy = false) :
      ControlChange s i ⟨false, false, false, false⟩ s.cfg s.cfs s.seq
  /-- START (R203). -/
  | started (hi : i = .start) (hb : s.busy = false) (hn : s.ctrl.init = true) :
      ControlChange s i ⟨s.ctrl.init, true, true, true⟩ s.cfg s.cfs s.seq
  /-- STOP (R204). -/
  | stopped (hi : i = .stop) (hb : s.busy = false) :
      ControlChange s i ⟨s.ctrl.init, false, false, false⟩ s.cfg s.cfs s.seq
  /-- PHASE_CALIBRATE (R162). -/
  | phaseCal (k lc : Nat) (hi : i = .phaseCalibrate k lc) (hb : s.busy = false) (hn : s.ctrl.init = true)
      (hk : k < s.ph.length) (hl : lc ≠ 0) (vt it : NumValue) :
      ControlChange s i { s.ctrl with adcEn := true, tmrEn := false } { s.cfg with updateInterval := lc } s.cfs
        { s.seq with
          target := k, savedUi := s.cfg.updateInterval, vrmsTgt := vt, irmsTgt := it, state := .pcalW1 }
  /-- GLOBAL_CALIBRATE (R163). -/
  | globalCal (hi : i = .globalCalibrate) (hb : s.busy = false) (hn : s.ctrl.init = true) (n : Nat) (h0 : 1 ≤ n)
      (h1 : n < 2 ^ 32) (rp ft : NumValue) :
      ControlChange s i { s.ctrl with adcEn := false, tmrEn := false, rtcEn := true } s.cfg
        ⟨true, false, false, n, 0, 0⟩
        { s.seq with rtcCycles := n, rtcPeriod := rp, flineTarget := ft, state := .gcalW }
  /-- SEQ_STEP into the second stage (R171). -/
  | coefficients (hi : i = .seqStep) (hs : s.seq.state = .pcalW1) :
      ControlChange s i { s.ctrl with adcEn := true } { s.cfg with updateInterval := s.seq.savedUi }
        s.cfs
        { s.seq with state := .pcalW2 }
  /-- SEQ_STEP that ends a phase calibration without coefficients (R171). -/
  | failed (hi : i = .seqStep) (hs : s.seq.state = .pcalW1) :
      ControlChange s i { s.ctrl with adcEn := true, tmrEn := true } { s.cfg with updateInterval := s.seq.savedUi }
        s.cfs
        { s.seq with result := .errCal, state := .idle }
  /-- SEQ_STEP that completes a phase calibration (R172). -/
  | corrected (hi : i = .seqStep) (hs : s.seq.state = .pcalW2) :
      ControlChange s i { s.ctrl with adcEn := true, tmrEn := true } s.cfg s.cfs
        { s.seq with result := .ok, state := .idle }
  /-- SEQ_STEP that ends a global calibration (R173). -/
  | globalDone (hi : i = .seqStep) (hs : s.seq.state = .gcalW) (hf : s.cfs.finished = true) (c : Cfg)
      (hu : c.updateInterval = s.cfg.updateInterval) (hl : c.ledOnCount = s.cfg.ledOnCount) (r : ResultCode) :
      ControlChange s i { s.ctrl with adcEn := true, tmrEn := true } c { s.cfs with finished := false }
        { s.seq with result := r, state := .idle }
  /-- EV_ADC inside the window (R190). -/
  | counted (hi : i = .evAdc) (hr : s.cfs.running = true) (n : Nat) (hn : n < 2 ^ 32) :
      ControlChange s i s.ctrl s.cfg { s.cfs with adcCnt := n } s.seq
  /-- EV_RTC that arms the window (R180). -/
  | windowStarts (hi : i = .evRtc) (he : s.ctrl.rtcEn = true) (hs : s.cfs.start = true) :
      ControlChange s i { s.ctrl with adcEn := true } s.cfg { s.cfs with start := false, running := true } s.seq
  /-- EV_RTC that counts (R180). -/
  | windowTicks (hi : i = .evRtc) (he : s.ctrl.rtcEn = true) (hs : s.cfs.start = false) (hr : s.cfs.running = true)
      (n : Nat) (h0 : 1 ≤ n) (hn : n < 2 ^ 32) : ControlChange s i s.ctrl s.cfg { s.cfs with rtcCnt := n } s.seq
  /-- EV_RTC that ends the window (R180). -/
  | windowEnds (hi : i = .evRtc) (he : s.ctrl.rtcEn = true) (hs : s.cfs.start = false) (hr : s.cfs.running = true) :
      ControlChange s i { s.ctrl with adcEn := false } s.cfg
        { s.cfs with rtcCnt := 0, running := false, finished := true } s.seq

/-- The control state of a host command. -/
theorem control_hostCommand {s after t : State} {i : Instr} {checks : List (Bool × ResultCode)} {results : List Word}
    (h : hostCommand checks after results s = .next t)
    (ha : firstFailure checks = none → ControlChange s i after.ctrl after.cfg after.cfs after.seq) :
    ControlChange s i t.ctrl t.cfg t.cfs t.seq := by
  rcases hostCommand_cases checks after results s with ⟨hf, h2⟩ | ⟨rc, _, h2⟩ <;> rw [h2] at h <;> cases h
  · exact ha hf
  · exact .kept

theorem control_readSlot {s t : State} {i : Instr} {k : Nat} {words : Slot → List Word}
    (h : readSlotCommand k words s = .next t) : ControlChange s i t.ctrl t.cfg t.cfs t.seq := by
  unfold readSlotCommand at h
  split at h <;> exact control_hostCommand h fun _ => .kept

theorem control_updateSlot (s : State) (i : Instr) (k : Nat) (f : Slot → Stored Slot) :
    ControlChange s i (s.updateSlot k f).ctrl (s.updateSlot k f).cfg (s.updateSlot k f).cfs (s.updateSlot k f).seq := by
  obtain ⟨_, _, h, _⟩ := updateSlot_frame s k f
  rw [h]; exact .kept

/-- What a legal operand of GLOBAL_CALIBRATE gives the window (R163). -/
theorem readWindow_bounds {N : NumStructure} {a : Vector Word 16} {n : Nat} {rp ft : NumValue}
    (h : readWindow N a = some (n, rp, ft)) :
    1 ≤ n ∧ n < 2 ^ 32 := by
  unfold readWindow at h
  split at h
  · rename_i h0 _ _
    cases h
    unfold natOperand at h0
    split at h0
    · rename_i hr
      cases h0
      exact ⟨hr.1, (a[0]).isLt⟩
    · cases h0
  · cases h

/-- What every operation makes of the control state. -/
theorem exec_control {i : Instr} {s t : State} (h : exec i s = .next t) :
    ControlChange s i t.ctrl t.cfg t.cfs t.seq := by
  cases i <;> simp only [exec] at h
  case ledDecay =>
    cases h
    obtain ⟨_, _, _, hf⟩ := ledDecay_frame s
    rw [hf]; exact .kept
  case energyRoute =>
    cases h
    obtain ⟨_, _, _, _, hf⟩ := energyRoute_frame s
    rw [hf]; exact .kept
  case seqStep =>
    unfold execSeqStep at h
    split at h
    · cases h; exact .kept
    · cases h; exact .kept
    · rename_i p hs hp
      split at h <;> cases h
      · unfold State.finishCoefficients
        dsimp only
        split
        · exact .coefficients rfl hs
        · exact .failed rfl hs
      · exact .kept
    · cases h; exact .kept
    · rename_i p hs hp
      split at h <;> cases h
      · exact .kept
      · exact .corrected rfl hs
    · rename_i hs
      split at h <;> cases h
      · rename_i hf
        unfold State.finishGlobal
        dsimp only
        split
        · exact .globalDone rfl hs hf s.cfg rfl rfl .errCal
        · exact .globalDone rfl hs hf
            (s.cfg.recalibrated s.num (measuredFs s.num s.seq s.cfs.adcCnt) s.seq.flineTarget) rfl rfl .ok
      · exact .kept
  case evAdc =>
    unfold execEvAdc at h
    split at h
    · split at h
      · rename_i hr
        cases h; exact .counted rfl hr _ (storeUnsigned_val_lt ..)
      · split at h <;> cases h
        · exact .kept
        · obtain ⟨_, _, _, h1⟩ := ledDecay_frame s.processPhases
          obtain ⟨_, _, _, _, h2⟩ := energyRoute_frame s.processPhases.ledDecay
          rw [h2, h1]; exact .kept
    · cases h; exact .kept
  case evTmr =>
    unfold execEvTmr at h
    split at h <;> cases h <;> exact .kept
  case evRtc =>
    unfold execEvRtc at h
    dsimp only at h
    split at h
    · rename_i he
      split at h
      · rename_i hs
        cases h; exact .windowStarts rfl he hs
      · rename_i hs
        have hs := (Bool.not_eq_true _).mp hs
        split at h
        · rename_i hr
          obtain ⟨c, hc⟩ : ∃ c, c = storeUnsigned 32 ((s.cfs.rtcCnt : Int) - 1) := ⟨_, rfl⟩
          have hlt : c.val < 2 ^ 32 := by rw [hc]; exact storeUnsigned_val_lt ..
          rw [← hc] at h
          split at h
          · rename_i hz
            cases h
            simp only [State.noteOvf_ctrl, State.noteOvf_cfg, State.noteOvf_cfs, State.noteOvf_seq, State.stopAdc_ctrl,
              State.stopAdc_cfg, State.stopAdc_cfs, State.stopAdc_seq, hz]
            exact .windowEnds rfl he hs hr
          · rename_i hz
            cases h
            exact .windowTicks rfl he hs hr _ (by omega) hlt
        · cases h; exact .kept
    · cases h; exact .kept
  case init =>
    unfold execInit at h
    split at h
    · exact control_hostCommand h fun _ => .kept
    · rename_i c hc
      refine control_hostCommand h fun hf => ?_
      rw [firstFailure_eq_none] at hf
      simp [busyCheck, samplingCheck] at hf
      exact .configured rfl hf.1 hf.2 c hc
  case deinit =>
    refine control_hostCommand h fun hf => ?_
    rw [firstFailure_eq_none] at hf
    simp [busyCheck] at hf
    exact .released rfl hf
  case start =>
    refine control_hostCommand h fun hf => ?_
    rw [firstFailure_eq_none] at hf
    simp [busyCheck, initCheck] at hf
    exact .started rfl hf.1 hf.2
  case stop =>
    refine control_hostCommand h fun hf => ?_
    rw [firstFailure_eq_none] at hf
    simp [busyCheck] at hf
    exact .stopped rfl hf
  case phaseLoadCal k =>
    unfold execPhaseLoadCal at h
    split at h
    · exact control_hostCommand h fun _ => .kept
    · exact control_hostCommand h fun _ => control_updateSlot ..
  case phaseCalibrate k lc =>
    unfold execPhaseCalibrate at h
    split at h
    · exact control_hostCommand h fun _ => .kept
    · rename_i vt it _
      refine control_hostCommand h fun hf => ?_
      rw [firstFailure_eq_none] at hf
      simp [busyCheck, initCheck, phaseCheck, State.registered, State.nPhases] at hf
      unfold State.beginPhaseCal
      dsimp only [State.hardResetSlot]
      obtain ⟨_, _, hu, _⟩ :=
        updateSlot_frame
          { s.stopAdc.stopTmr with
            seq :=
              { s.stopAdc.stopTmr.seq with
                target := k
                savedUi := s.stopAdc.stopTmr.cfg.updateInterval
                vrmsTgt := vt
                irmsTgt := it
                state := .pcalW1 }
            cfg := { s.stopAdc.stopTmr.cfg with updateInterval := lc } } k fun p => ⟨p.hardReset, false⟩
      rw [hu]
      exact .phaseCal k lc rfl hf.1 hf.2.1 (of_decide_eq_true hf.2.2.1) hf.2.2.2 vt it
  case globalCalibrate =>
    unfold execGlobalCalibrate at h
    split at h
    · exact control_hostCommand h fun _ => .kept
    · rename_i n rp ft hw
      obtain ⟨h0, h1⟩ := readWindow_bounds hw
      refine control_hostCommand h fun hf => ?_
      rw [firstFailure_eq_none] at hf
      simp [busyCheck, initCheck] at hf
      unfold State.beginGlobalCal State.ensureRtc
      dsimp only
      split
      · rename_i hr
        have hr : s.ctrl.rtcEn = true := hr
        have hctrl : s.stopAdc.stopTmr.ctrl = { s.ctrl with adcEn := false, tmrEn := false, rtcEn := true } := by
          rw [← hr]; rfl
        rw [hctrl]
        exact .globalCal rfl hf.1 hf.2 n h0 h1 rp ft
      · exact .globalCal rfl hf.1 hf.2 n h0 h1 rp ft
  case energySet =>
    unfold execEnergySet at h
    split at h <;> exact control_hostCommand h fun _ => .kept
  case measReady k =>
    unfold execMeasReady at h
    split at h <;> exact control_hostCommand h fun _ => .kept
  all_goals
    first
    | exact control_readSlot h
    | exact control_hostCommand h fun _ => .kept
    | (cases h; exact control_updateSlot ..)

end Sys2Proof.Machine
end

