-- ==== Sys2Proof/Laws/Decode.lean ====
section
/-! SUPPORT. The fields of an operation word: what they can hold, what an encoded operation has in them. -/

namespace Sys2Proof

theorem phField_lt (w : Word) : phField w < 2 ^ 8 := by unfold phField; omega

theorem immField_lt (w : Word) : immField w < 2 ^ 16 := by unfold immField; omega

theorem opField_lt (w : Word) : opField w < 2 ^ 8 := by unfold opField; omega

theorem opcode_lt (i : Instr) : i.opcode < 2 ^ 8 := by cases i <;> simp [Instr.opcode]

/-- The operands of a decoded operation are fields of its word, so they fit (R80, R81). -/
theorem phase_imm_of_decode {w : Word} {i : Instr} (h : decode w = .ok i) : i.phase < 2 ^ 8 ∧ i.imm < 2 ^ 16 := by
  have hp := phField_lt w
  have hi := immField_lt w
  unfold decode at h
  split at h
  all_goals (try unfold phaseForm at h)
  all_goals (try unfold bareForm at h)
  all_goals (try split at h)
  all_goals (cases h; try simp_all [Instr.phase, Instr.imm])

/-- The opcode of a word built from three fields. -/
theorem opField_append (o p : BitVec 8) (m : BitVec 16) : opField (o ++ p ++ m) = o.toNat := by
  have h : (o ++ p ++ m).extractLsb' 24 8 = o := by
    ext j hj
    rw [BitVec.getElem_extractLsb', BitVec.getLsbD_append, BitVec.getLsbD_append]
    rw [if_neg (by omega), if_neg (by omega), show 24 + j - 16 - 8 = j by omega, BitVec.getLsbD_eq_getElem hj]
  unfold opField
  rw [h]

/-- The `PH` field of a word built from three fields. -/
theorem phField_append (o p : BitVec 8) (m : BitVec 16) : phField (o ++ p ++ m) = p.toNat := by
  have h : (o ++ p ++ m).extractLsb' 16 8 = p := by
    ext j hj
    rw [BitVec.getElem_extractLsb', BitVec.getLsbD_append, BitVec.getLsbD_append]
    rw [if_neg (by omega), if_pos (by omega), show 16 + j - 16 = j by omega, BitVec.getLsbD_eq_getElem hj]
  unfold phField
  rw [h]

/-- The `IMM` field of a word built from three fields. -/
theorem immField_append (o p : BitVec 8) (m : BitVec 16) : immField (o ++ p ++ m) = m.toNat := by
  have h : (o ++ p ++ m).extractLsb' 0 16 = m := by
    ext j hj
    rw [BitVec.getElem_extractLsb', BitVec.getLsbD_append]
    rw [if_pos (by omega), show 0 + j = j by omega, BitVec.getLsbD_eq_getElem hj]
  unfold immField
  rw [h]

/-- A word is its three fields. -/
theorem word_eq_fields (w : Word) :
    w = BitVec.ofNat 8 (opField w) ++ BitVec.ofNat 8 (phField w) ++ BitVec.ofNat 16 (immField w) := by
  unfold opField phField immField
  simp only [BitVec.ofNat_toNat, BitVec.setWidth_eq]
  ext j hj
  rw [BitVec.getElem_append]
  split
  · simp; rw [BitVec.getLsbD_eq_getElem (by omega)]
  · rw [BitVec.getElem_append]
    split <;> simp <;> rw [BitVec.getLsbD_eq_getElem (by omega)] <;> congr 1 <;> omega

end Sys2Proof
end

