-- ==== Sys2Proof/Laws/PerInstr.lean ====
section
/-! SUPPORT. The statements made once per operation: the fields of an encoded operation (R80, R84). -/

namespace Sys2Proof.Laws

/-- The word of a well-formed operation holds its opcode, its phase slot and its immediate, each in its field (R80). -/
def EncodedFields.Statement (i : Instr) : Prop :=
  i.wellFormed = true →
    opField (encode i) = i.opcode ∧ phField (encode i) = i.phase ∧ immField (encode i) = i.imm

/-- The argument that serves every operation. -/
theorem encodedFields_of (i : Instr) : EncodedFields.Statement i := by
  intro h
  simp only [Instr.wellFormed, phaseFits, immFits, Bool.and_eq_true, decide_eq_true_eq] at h
  have ho := opcode_lt i
  refine ⟨?_, ?_, ?_⟩
  · rw [encode, opField_append, BitVec.toNat_ofNat, Nat.mod_eq_of_lt ho]
  · rw [encode, phField_append, BitVec.toNat_ofNat, Nat.mod_eq_of_lt h.1]
  · rw [encode, immField_append, BitVec.toNat_ofNat, Nat.mod_eq_of_lt h.2]

theorem EncodedFields.zcdDetect (k : Nat) : EncodedFields.Statement (.zcdDetect k) := encodedFields_of _
theorem EncodedFields.accReset (k : Nat) : EncodedFields.Statement (.accReset k) := encodedFields_of _
theorem EncodedFields.accAccumulate (k : Nat) : EncodedFields.Statement (.accAccumulate k) := encodedFields_of _
theorem EncodedFields.accLoad (k : Nat) : EncodedFields.Statement (.accLoad k) := encodedFields_of _
theorem EncodedFields.phaseSample (k : Nat) : EncodedFields.Statement (.phaseSample k) := encodedFields_of _
theorem EncodedFields.hardReset (k : Nat) : EncodedFields.Statement (.hardReset k) := encodedFields_of _
theorem EncodedFields.measurePhase (k : Nat) : EncodedFields.Statement (.measurePhase k) := encodedFields_of _
theorem EncodedFields.angleEnter (k : Nat) : EncodedFields.Statement (.angleEnter k) := encodedFields_of _
theorem EncodedFields.angleSample (k : Nat) : EncodedFields.Statement (.angleSample k) := encodedFields_of _
theorem EncodedFields.ledDecay : EncodedFields.Statement .ledDecay := encodedFields_of _
theorem EncodedFields.energyRoute : EncodedFields.Statement .energyRoute := encodedFields_of _
theorem EncodedFields.seqStep : EncodedFields.Statement .seqStep := encodedFields_of _
theorem EncodedFields.evAdc : EncodedFields.Statement .evAdc := encodedFields_of _
theorem EncodedFields.evTmr : EncodedFields.Statement .evTmr := encodedFields_of _
theorem EncodedFields.evRtc : EncodedFields.Statement .evRtc := encodedFields_of _
theorem EncodedFields.init : EncodedFields.Statement .init := encodedFields_of _
theorem EncodedFields.deinit : EncodedFields.Statement .deinit := encodedFields_of _
theorem EncodedFields.start : EncodedFields.Statement .start := encodedFields_of _
theorem EncodedFields.stop : EncodedFields.Statement .stop := encodedFields_of _
theorem EncodedFields.phaseRegister : EncodedFields.Statement .phaseRegister := encodedFields_of _
theorem EncodedFields.phaseLoadCal (k : Nat) : EncodedFields.Statement (.phaseLoadCal k) := encodedFields_of _
theorem EncodedFields.phaseCalibrate (k lc : Nat) : EncodedFields.Statement (.phaseCalibrate k lc) := encodedFields_of _
theorem EncodedFields.globalCalibrate : EncodedFields.Statement .globalCalibrate := encodedFields_of _
theorem EncodedFields.energySet : EncodedFields.Statement .energySet := encodedFields_of _
theorem EncodedFields.energyGet : EncodedFields.Statement .energyGet := encodedFields_of _
theorem EncodedFields.statusGet (k : Nat) : EncodedFields.Statement (.statusGet k) := encodedFields_of _
theorem EncodedFields.vrmsGet (k : Nat) : EncodedFields.Statement (.vrmsGet k) := encodedFields_of _
theorem EncodedFields.irmsGet (k : Nat) : EncodedFields.Statement (.irmsGet k) := encodedFields_of _
theorem EncodedFields.flineGet (k : Nat) : EncodedFields.Statement (.flineGet k) := encodedFields_of _
theorem EncodedFields.pGet (k : Nat) : EncodedFields.Statement (.pGet k) := encodedFields_of _
theorem EncodedFields.qGet (k : Nat) : EncodedFields.Statement (.qGet k) := encodedFields_of _
theorem EncodedFields.sGet (k : Nat) : EncodedFields.Statement (.sGet k) := encodedFields_of _
theorem EncodedFields.measGet (k : Nat) : EncodedFields.Statement (.measGet k) := encodedFields_of _
theorem EncodedFields.consGet : EncodedFields.Statement .consGet := encodedFields_of _
theorem EncodedFields.measReady (k : Nat) : EncodedFields.Statement (.measReady k) := encodedFields_of _
theorem EncodedFields.phaseCalGet (k : Nat) : EncodedFields.Statement (.phaseCalGet k) := encodedFields_of _
theorem EncodedFields.seqStatus : EncodedFields.Statement .seqStatus := encodedFields_of _
theorem EncodedFields.statGet : EncodedFields.Statement .statGet := encodedFields_of _

end Sys2Proof.Laws
end

