-- ==== Sys2Proof/Laws/Step.lean ====
section
/-! SUPPORT. Everything a step can do: nothing, an operation of some agent, an access of the host port that runs no
operation, or power-on reset. -/

namespace Sys2Proof.Machine

/-- An operation a step runs: the state it runs in is `s` with the stimulus consumed and, for an ADC step, the sample
input `smp`. Only a word of the `.op` route can be a micro-operation other than SEQ_STEP. -/
structure Delivered (s : State) (x : Stimulus) (rest : List Stimulus) (i : Instr) (smp : List Triple) : Prop where
  inbox : s.inbox = x :: rest
  sample : smp = s.smp ∨ x = .adc smp
  word : ∀ w, x = .op w → decode w = .ok i
  source : (∃ w, x = .op w) ∨ Instr.isAgentStep i = true
  fits : i.phase < 2 ^ 8 ∧ i.imm < 2 ^ 16

/-- The operation classes of the words the host port admits (R83, R85). -/
theorem opClass_of_hostOpcode {w : Word} {i : Instr} (hw : isHostOpcode (opField w) = true) (h : decode w = .ok i) :
    i.opClass = .host := by
  simp only [isHostOpcode, Bool.and_eq_true, decide_eq_true_eq] at hw
  unfold decode at h
  split at h <;> first | omega | skip
  all_goals (try unfold phaseForm at h)
  all_goals (try unfold bareForm at h)
  all_goals (try split at h)
  all_goals (cases h; try rfl)

/-- What a word at the decoder can do. -/
theorem runWord_cases {w : Word} {s t : State} (h : runWord w s = .next t) :
    (∃ i, decode w = .ok i ∧ exec i s = .next t) ∨ ∃ rc, t = { s with rc := rc } := by
  unfold runWord at h
  split at h
  · exact .inl ⟨_, ‹_›, h⟩
  · cases h; exact .inr ⟨_, rfl⟩

/-- What a host write can do: run a host command, or change an operand register, `RC` or `fault.BUS`. -/
theorem hostWrite_cases {addr width : Nat} {v : Word} {s t : State} (h : hostWrite addr width v s = .next t) :
    (∃ i, i.opClass = .host ∧ decode v = .ok i ∧ exec i s = .next t) ∨
    ∃ bus a rc, t = { s with fault := { s.fault with bus := bus }, A := a, rc := rc } := by
  unfold hostWrite at h
  split at h
  · cases h
  · split at h
    · unfold writeRegister at h
      split at h
      · unfold issueCommand at h
        split at h
        · rename_i hop
          rcases runWord_cases h with ⟨i, hd, he⟩ | ⟨rc, rfl⟩
          · exact .inl ⟨i, opClass_of_hostOpcode hop hd, hd, he⟩
          · exact .inr ⟨_, _, _, rfl⟩
        · cases h; exact .inr ⟨_, _, _, rfl⟩
      all_goals (cases h; exact .inr ⟨_, _, _, rfl⟩)
    · cases h; exact .inr ⟨_, _, _, rfl⟩

/-- What a host read can do: change the read data or `fault.BUS`. -/
theorem hostRead_cases {addr width : Nat} {s t : State} (h : hostRead addr width s = .next t) :
    ∃ bus d, t = { s with fault := { s.fault with bus := bus }, rdata := d } := by
  unfold hostRead at h
  split at h
  · cases h
  · split at h <;> cases h <;> exact ⟨_, _, rfl⟩

/-- Everything a step can do. -/
theorem step_cases {s t : State} (h : step s = .next t) :
    (s.inbox = [] ∧ t = s) ∨
    (∃ x rest i smp, Delivered s x rest i smp ∧ exec i { s with inbox := rest, smp := smp } = .next t) ∨
    (∃ x rest bus a rc d, s.inbox = x :: rest ∧
      t = { s with inbox := rest, fault := { s.fault with bus := bus }, A := a, rc := rc, rdata := d }) ∨
    (∃ rest, s.inbox = .powerOn :: rest ∧ t = { State.reset with par := s.par, inbox := rest }) := by
  unfold step takeNext at h
  split at h
  · cases h; exact .inl ⟨‹_›, rfl⟩
  · rename_i x rest hx
    refine .inr ?_
    cases x <;> simp only [takeStimulus] at h
    case hostWrite addr width v =>
      rcases hostWrite_cases h with ⟨i, hc, hd, he⟩ | ⟨_, _, _, rfl⟩
      · exact .inl
          ⟨_, rest, i, s.smp,
            ⟨hx, .inl rfl, nofun, .inr (by simp [Instr.isAgentStep, hc]), phase_imm_of_decode hd⟩, he⟩
      · exact .inr (.inl ⟨_, rest, _, _, _, _, hx, rfl⟩)
    case hostRead addr width =>
      obtain ⟨_, _, rfl⟩ := hostRead_cases h
      exact .inr (.inl ⟨_, rest, _, _, _, _, hx, rfl⟩)
    case adc l => exact .inl ⟨_, rest, .evAdc, l, ⟨hx, .inr rfl, nofun, .inr rfl, by decide⟩, h⟩
    case tmr => exact .inl ⟨_, rest, .evTmr, s.smp, ⟨hx, .inl rfl, nofun, .inr rfl, by decide⟩, h⟩
    case rtc => exact .inl ⟨_, rest, .evRtc, s.smp, ⟨hx, .inl rfl, nofun, .inr rfl, by decide⟩, h⟩
    case seq => exact .inl ⟨_, rest, .seqStep, s.smp, ⟨hx, .inl rfl, nofun, .inr rfl, by decide⟩, h⟩
    case op w =>
      rcases runWord_cases h with ⟨i, hd, he⟩ | ⟨rc, rfl⟩
      · exact .inl
          ⟨_, rest, i, s.smp,
            ⟨hx, .inl rfl, fun v hv => by cases hv; exact hd, .inl ⟨w, rfl⟩, phase_imm_of_decode hd⟩, he⟩
      · exact .inr (.inl ⟨_, rest, _, _, _, _, hx, rfl⟩)
    case powerOn => cases h; exact .inr (.inr ⟨rest, hx, rfl⟩)

end Sys2Proof.Machine
end

