-- ==== Sys2Proof/Tests/Slice0.lean ====
section
/-! SUPPORT. Tests of the model: expected values are those of the spec's worked examples (E, and the examples of the
rules), of its vectors (V) and of its programs (L). Then, for each statement that has hypotheses, states that meet them,
one for each clause. -/

namespace Sys2Proof.Tests

open Sys2Proof Sys2Proof.Machine

/-! ## Well-formedness: one ill-formed operation for each check -/

theorem test_wellFormed_refuses_phase : (Instr.measGet 256).wellFormed = false := by decide
theorem test_wellFormed_refuses_immediate : (Instr.phaseCalibrate 0 65536).wellFormed = false := by decide
theorem test_wellFormed_admits_largest : (Instr.phaseCalibrate 255 65535).wellFormed = true := by decide

/-! ## Decoding: the word of each row of R84, written out from its fields -/

theorem test_decode_zcdDetect : decode 0b00000001_01011010_0000000000000000#32 = .ok (.zcdDetect 0x5A) := by decide
theorem test_decode_accReset : decode 0b00000010_01011010_0000000000000000#32 = .ok (.accReset 0x5A) := by decide
theorem test_decode_accAccumulate : decode 0b00000011_01011010_0000000000000000#32 = .ok (.accAccumulate 0x5A) :=
  by decide
theorem test_decode_accLoad : decode 0b00000100_01011010_0000000000000000#32 = .ok (.accLoad 0x5A) := by decide
theorem test_decode_phaseSample : decode 0b00000101_01011010_0000000000000000#32 = .ok (.phaseSample 0x5A) := by decide
theorem test_decode_hardReset : decode 0b00000110_01011010_0000000000000000#32 = .ok (.hardReset 0x5A) := by decide
theorem test_decode_measurePhase : decode 0b00000111_01011010_0000000000000000#32 = .ok (.measurePhase 0x5A) :=
  by decide
theorem test_decode_angleEnter : decode 0b00001000_01011010_0000000000000000#32 = .ok (.angleEnter 0x5A) := by decide
theorem test_decode_angleSample : decode 0b00001001_01011010_0000000000000000#32 = .ok (.angleSample 0x5A) := by decide
theorem test_decode_ledDecay : decode 0b00001010_00000000_0000000000000000#32 = .ok .ledDecay := by decide
theorem test_decode_energyRoute : decode 0b00001011_00000000_0000000000000000#32 = .ok .energyRoute := by decide
theorem test_decode_seqStep : decode 0b00001100_00000000_0000000000000000#32 = .ok .seqStep := by decide
theorem test_decode_evAdc : decode 0b00010000_00000000_0000000000000000#32 = .ok .evAdc := by decide
theorem test_decode_evTmr : decode 0b00010001_00000000_0000000000000000#32 = .ok .evTmr := by decide
theorem test_decode_evRtc : decode 0b00010010_00000000_0000000000000000#32 = .ok .evRtc := by decide
theorem test_decode_init : decode 0b00100000_00000000_0000000000000000#32 = .ok .init := by decide
theorem test_decode_deinit : decode 0b00100001_00000000_0000000000000000#32 = .ok .deinit := by decide
theorem test_decode_start : decode 0b00100010_00000000_0000000000000000#32 = .ok .start := by decide
theorem test_decode_stop : decode 0b00100011_00000000_0000000000000000#32 = .ok .stop := by decide
theorem test_decode_phaseRegister : decode 0b00100100_00000000_0000000000000000#32 = .ok .phaseRegister := by decide
theorem test_decode_phaseLoadCal : decode 0b00100101_01011010_0000000000000000#32 = .ok (.phaseLoadCal 0x5A) :=
  by decide
theorem test_decode_phaseCalibrate : decode 0b00100110_00000001_0000000000011001#32 = .ok (.phaseCalibrate 1 25) :=
  by decide
theorem test_decode_globalCalibrate : decode 0b00100111_00000000_0000000000000000#32 = .ok .globalCalibrate := by decide
theorem test_decode_energySet : decode 0b00101000_00000000_0000000000000000#32 = .ok .energySet := by decide
theorem test_decode_energyGet : decode 0b00101001_00000000_0000000000000000#32 = .ok .energyGet := by decide
theorem test_decode_statusGet : decode 0b00101010_01011010_0000000000000000#32 = .ok (.statusGet 0x5A) := by decide
theorem test_decode_vrmsGet : decode 0b00101011_01011010_0000000000000000#32 = .ok (.vrmsGet 0x5A) := by decide
theorem test_decode_irmsGet : decode 0b00101100_01011010_0000000000000000#32 = .ok (.irmsGet 0x5A) := by decide
theorem test_decode_flineGet : decode 0b00101101_01011010_0000000000000000#32 = .ok (.flineGet 0x5A) := by decide
theorem test_decode_pGet : decode 0b00101110_01011010_0000000000000000#32 = .ok (.pGet 0x5A) := by decide
theorem test_decode_qGet : decode 0b00101111_01011010_0000000000000000#32 = .ok (.qGet 0x5A) := by decide
theorem test_decode_sGet : decode 0b00110000_01011010_0000000000000000#32 = .ok (.sGet 0x5A) := by decide
theorem test_decode_measGet : decode 0b00110001_01011010_0000000000000000#32 = .ok (.measGet 0x5A) := by decide
theorem test_decode_consGet : decode 0b00110010_00000000_0000000000000000#32 = .ok .consGet := by decide
theorem test_decode_measReady : decode 0b00110011_01011010_0000000000000000#32 = .ok (.measReady 0x5A) := by decide
theorem test_decode_phaseCalGet : decode 0b00110100_01011010_0000000000000000#32 = .ok (.phaseCalGet 0x5A) := by decide
theorem test_decode_seqStatus : decode 0b00110101_00000000_0000000000000000#32 = .ok .seqStatus := by decide
theorem test_decode_statGet : decode 0b00110110_00000000_0000000000000000#32 = .ok .statGet := by decide
theorem test_decode_reserved_opcodes :
    [0x00000000#32, 0x0D000000#32, 0x13000000#32, 0x1F000000#32, 0x37000000#32, 0xFF000000#32].map decode =
      List.replicate 6 (.error .illegalOpcode) := by decide
theorem test_decode_reserved_fields :
    [0x20010000#32, 0x22000001#32, 0x31000001#32, 0x0A010000#32].map decode =
      List.replicate 4 (.error .reservedField) := by decide
theorem test_bytes_little_endian :
    decodeBytes [0x19#8, 0x00#8, 0x01#8, 0x26#8] = .ok (.phaseCalibrate 1 25) := by decide
theorem test_table_word : decodeTableWord 32 0x33020000 = some (.measReady 2) := by decide
theorem test_encode_calibrate : encode (.phaseCalibrate 1 25) = 0x26010019#32 := by decide

/-! ## States of the vectors -/

/-- A number by its word in section 0 of the vectors. -/
abbrev num (w : Word) : NumValue := ⟨w.toNat⟩

/-- The default numeric structure, that of the vectors. -/
abbrev B : NumStructure := NumStructure.binary32

/-- The small configuration of the vectors: 2, 45, 55, 10, 1, 1, 3, 2, 2, 450, 4.5. -/
def smallCfg : Cfg :=
  ⟨2, num 0x42340000#32, num 0x425C0000#32, num 0x41200000#32, num 0x3F800000#32, num 0x3F800000#32,
    num 0x40400000#32, 2, num 0x40000000#32, num 0x43E10000#32, num 0x40900000#32⟩

/-- A block that is initialised and stopped, with the given slots. -/
def stoppedWith (ph : List Slot) : State :=
  { State.reset with ctrl := ⟨true, false, false, false⟩, cfg := smallCfg, ph := ph }

/-- A block that is initialised and started, with the given slots. -/
def startedWith (ph : List Slot) : State := { stoppedWith ph with ctrl := ⟨true, true, true, true⟩ }

/-- A slot as registered. -/
abbrev fresh : Slot := Slot.registration B

/-- Operand registers from a list, the others 0. -/
def operands (l : List Word) : Vector Word 16 := writeFrom 0 l (Vector.replicate 16 0#32)

/-- The state after a step that went on. -/
def after (r : StepResult) : State :=
  match r with
  | .next t => t
  | .fault _ => State.reset
  | .refused _ => State.reset

/-- Slot 0 of a state. -/
def slot0 (s : State) : Slot := s.ph.headD fresh

/-! ## Numbers -/

theorem test_num_literals :
    [B.ofInt 450, B.div (B.ofInt 9) (B.ofInt 2), B.div (B.ofInt (-9)) (B.ofInt 4),
      B.div (B.ofInt 2) (B.ofInt 3), B.div (B.ofInt 15625) (B.ofInt 4)].map B.enc =
      [0x43E10000#32, 0x40900000#32, 0xC0100000#32, 0x3F2AAAAB#32, 0x45742400#32] := by decide
theorem test_num_sqrt : B.sqrt (B.ofInt 9) = num 0x40400000#32 := by decide
theorem test_num_dec_refuses : B.dec 0x7FC00000#32 = none ∧ B.dec 0x7F800000#32 = none := by decide
theorem test_num_negative_zero : B.le NumValue.zero (num 0x80000000#32) = true := by decide

/-! ## Micro-operations -/

/-- E1 step 3. -/
theorem test_zcdDetect_counts :
    (slot0 (after (exec (.zcdDetect 0) (startedWith
      [{ fresh with zc := ⟨-1, false, true, 0⟩, ws := ⟨2, 0, 0⟩ }])))).zc =
      ⟨2, true, true, 1⟩ := by decide
/-- E1 step 1: the first crossing synchronises. -/
theorem test_zcdDetect_synchronises :
    (slot0 (after (exec (.zcdDetect 0) (startedWith
      [{ fresh with zc := ⟨-3, false, false, 0⟩, ws := ⟨4, 0, 0⟩ }])))).zc =
      ⟨4, true, true, 0⟩ := by decide
/-- V41-1. -/
theorem test_accReset :
    (slot0 (after (exec (.accReset 0) (startedWith [{ fresh with ws := ⟨2, 3, -2⟩ }])))).live = ⟨4, 9, 6, -6, 1⟩ := by
  decide
/-- V41-2. -/
theorem test_accAccumulate :
    (slot0 (after (exec (.accAccumulate 0)
      (startedWith [{ fresh with live := ⟨4, 9, 6, -6, 1⟩, ws := ⟨2, 3, 2⟩ }])))).live = ⟨8, 18, 12, 0, 2⟩ := by decide
/-- V41-7: the sum wraps and the fault is set. -/
theorem test_accAccumulate_overflow :
    (slot0 (after (exec (.accAccumulate 0)
      (startedWith [{ fresh with live := ⟨9223372036854775798, 0, 0, 0, 5⟩, ws := ⟨4, 0, 0⟩ }])))).live =
      ⟨-9223372036854775802, 0, 0, 0, 6⟩ ∧
    (after (exec (.accAccumulate 0)
      (startedWith [{ fresh with live := ⟨9223372036854775798, 0, 0, 0, 5⟩, ws := ⟨4, 0, 0⟩ }]))).fault.ovf = true := by
  decide
/-- The example of R113. -/
theorem test_accLoad :
    (slot0 (after (exec (.accLoad 0) (startedWith [{ fresh with live := ⟨36, 81, 54, -6, 9⟩ }])))).snap =
      ⟨36, 81, 54, -6, 9⟩ := by decide
/-- V41-3: the window closes and its last sample seeds the next. -/
theorem test_phaseSample_closes :
    slot0 (after (exec (.phaseSample 0)
      (startedWith [{ fresh with
        zc := ⟨-2, false, true, 1⟩, live := ⟨32, 72, 48, -6, 8⟩, ws := ⟨2, 3, -2⟩ }]))) =
      { fresh with
        zc := ⟨2, true, true, 0⟩
        live := ⟨4, 9, 6, -6, 1⟩
        snap := ⟨36, 81, 54, -12, 9⟩
        ws := ⟨2, 3, -2⟩
        sig := ⟨true, false, false⟩ } := by decide
/-- V41-5: a lowered interval closes the window without a crossing. -/
theorem test_phaseSample_lowered :
    (slot0 (after (exec (.phaseSample 0)
      { startedWith [{ fresh with
          zc := ⟨2, false, true, 2⟩, live := ⟨40, 90, 60, 0, 10⟩, ws := ⟨2, 3, 0⟩ }] with
        cfg := { smallCfg with updateInterval := 1 } }))).snap = ⟨44, 99, 66, 0, 11⟩ := by decide
/-- V41-6. -/
theorem test_hardReset :
    slot0 (after (exec (.hardReset 0)
      (startedWith [{ fresh with
        coef := ⟨num 0x3F000000#32, num 0x3F000000#32, num 0x3E800000#32, num 0xC0100000#32⟩
        zc := ⟨5, true, true, 1⟩
        live := ⟨4, 9, 6, -6, 1⟩
        sig := ⟨true, true, true⟩
        ang := ⟨3, 1, num 0x40100000#32, num 0x3F400000#32, 3, .ok⟩ }]))) =
      { fresh with
        coef := ⟨num 0x3F000000#32, num 0x3F000000#32, num 0x3E800000#32, num 0xC0100000#32⟩
        ang := ⟨3, 1, num 0x40100000#32, num 0x3F400000#32, 3, .ok⟩ } := by decide
/-- V42-6: sag and no-load. -/
theorem test_measurePhase_sag :
    (slot0 (after (exec (.measurePhase 0)
      (startedWith [{ fresh with
        coef := { fresh.coef with vrmsCoeff := num 0x40800000#32 }
        snap := ⟨36, 81, 54, -6, 9⟩
        sig := ⟨true, false, false⟩ }])))).status = ⟨false, true, false, true, false⟩ := by decide +kernel
/-- V42-9: swell after sag. -/
theorem test_measurePhase_swell :
    (slot0 (after (exec (.measurePhase 0)
      (startedWith [{ fresh with
        snap := ⟨144, 81, 108, 0, 9⟩
        sig := ⟨true, false, false⟩
        status := ⟨false, true, false, true, false⟩ }])))).status = ⟨false, true, false, false, true⟩ := by
  decide +kernel
/-- V43-1. -/
theorem test_angleEnter :
    (slot0 (after (exec (.angleEnter 0) (startedWith [fresh])))).ang =
      ⟨1, 1, NumValue.zero, NumValue.zero, 0, .none⟩ := by
  decide
/-- V43-5: a zero previous sample contributes a zero fraction, and the sub-mode ends. -/
theorem test_angleSample_completes :
    (slot0 (after (exec (.angleSample 0)
      (startedWith [{ fresh with
        ang := ⟨0, -1, num 0x3FC00000#32, num 0x3F000000#32, 2, .phaseAngleError⟩
        ws := ⟨5, 1, 0⟩
        sig := ⟨false, false, true⟩ }])))).ang =
      ⟨5, 1, num 0x3FC00000#32, num 0x3F800000#32, 3, .ok⟩ := by decide
/-- V43-4: only the current crosses. -/
theorem test_angleSample_error :
    (slot0 (after (exec (.angleSample 0)
      (startedWith [{ fresh with
        ang := ⟨2, -1, NumValue.zero, NumValue.zero, 0, .none⟩, ws := ⟨3, 1, 0⟩,
        sig := ⟨false, false, true⟩ }])))).ang =
      ⟨3, 1, NumValue.zero, NumValue.zero, 0, .phaseAngleError⟩ := by decide
/-- V46-14. -/
theorem test_ledDecay :
    (after (exec .ledDecay { startedWith [] with led := ⟨⟨true, 1⟩, ⟨false, 0⟩, ⟨true, 2⟩⟩ })).led =
      ⟨⟨true, 2⟩, ⟨false, 0⟩, ⟨false, 0⟩⟩ ∧
    (after (exec .ledDecay { startedWith [] with led := ⟨⟨true, 1⟩, ⟨false, 0⟩, ⟨true, 2⟩⟩ })).trace =
      [.impApparentOff] := by decide
/-- V46-1: exporting, reactive positive. -/
theorem test_energyRoute_export :
    (after (exec .energyRoute
      { startedWith [] with
        ledger := ⟨⟨num 0xC0400000#32, num 0x40000000#32, num 0x40800000#32⟩, Vector.replicate 8 NumValue.zero,
          Vector.replicate 8 0⟩ })).ledger.acc =
      #v[NumValue.zero, num 0x40400000#32, NumValue.zero, num 0x40800000#32, NumValue.zero, num 0x40000000#32,
        NumValue.zero,
        NumValue.zero] := by decide +kernel
/-- V46-9: the lifetime counter wraps without a fault. -/
theorem test_energyRoute_lifetime_wraps :
    (after (exec .energyRoute
      { startedWith [] with
        ledger := ⟨⟨num 0x3F800000#32, NumValue.zero, NumValue.zero⟩,
          (Vector.replicate 8 NumValue.zero).set 0 (num 0x41100000#32),
          (Vector.replicate 8 0).set 0 4294967295⟩ })).ledger.life = Vector.replicate 8 0 ∧
    (after (exec .energyRoute
      { startedWith [] with
        ledger := ⟨⟨num 0x3F800000#32, NumValue.zero, NumValue.zero⟩,
          (Vector.replicate 8 NumValue.zero).set 0 (num 0x41100000#32),
          (Vector.replicate 8 0).set 0 4294967295⟩ })).fault.ovf = false := by decide

/-- The target slot of V44-13, its window ready. -/
def calibrationSlot (iacc pacc : Int) : Slot :=
  { fresh with snap := ⟨20, iacc, pacc, 0, 5⟩, sig := ⟨true, false, false⟩ }

/-- A phase calibration in its first stage, targets 4 and 6 (V44-13). -/
def calibrating (p : Slot) : State :=
  { startedWith [p] with
    ctrl := ⟨true, true, false, true⟩
    cfg := { smallCfg with updateInterval := 1 }
    seq := { Seq.idle with
      state := .pcalW1, savedUi := 2, vrmsTgt := num 0x40800000#32, irmsTgt := num 0x40C00000#32 } }

/-- V44-13. -/
theorem test_seqStep_coefficients :
    (slot0 (after (exec .seqStep (calibrating (calibrationSlot 45 30))))).coef =
      ⟨num 0x3F000000#32, num 0x3F000000#32, num 0x3E800000#32, NumValue.zero⟩ ∧
    (after (exec .seqStep (calibrating (calibrationSlot 45 30)))).trace = [.adcStop, .adcStart] := by decide +kernel
/-- V44-14: no current, so the calibration fails. -/
theorem test_seqStep_fails :
    (after (exec .seqStep (calibrating (calibrationSlot 0 0)))).seq.result = .errCal ∧
    (after (exec .seqStep (calibrating (calibrationSlot 0 0)))).trace = [.adcStop, .adcStart, .tmrStart] := by decide

/-! ## Events -/

/-- L3-1 step 4: the first sample synchronises. -/
theorem test_evAdc_first_sample :
    (slot0 (after (exec .evAdc { startedWith [fresh] with smp := [⟨2, 3, -2⟩] }))).live = ⟨4, 9, 6, -6, 1⟩ := by decide
/-- V46-17: inside the window a sample is only counted. -/
theorem test_evAdc_counts :
    after (exec .evAdc { startedWith [fresh] with smp := [⟨5, 5, 5⟩], cfs := ⟨false, true, false, 2, 4, 0⟩ }) =
      { startedWith [fresh] with smp := [⟨5, 5, 5⟩], cfs := ⟨false, true, false, 2, 5, 0⟩ } := by decide
/-- V42-15: a slot whose window is not ready contributes its old units. -/
theorem test_evTmr_totals :
    (after (exec .evTmr
      (startedWith
        [{ fresh with snap := ⟨36, 81, 54, -6, 9⟩, sig := ⟨true, false, false⟩ },
          { fresh with eu := ⟨num 0xC0400000#32, num 0x3F800000#32, num 0x40400000#32⟩ }]))).ledger.unit =
      ⟨NumValue.zero, num 0x3F800000#32, num 0x40C00000#32⟩ := by decide +kernel
/-- V42-1. -/
theorem test_evTmr_measures :
    (slot0 (after (exec .evTmr
      (startedWith [{ fresh with snap := ⟨36, 81, 54, -6, 9⟩, sig := ⟨true, false, false⟩ }])))).meas =
      ⟨num 0x40000000#32, num 0x40400000#32, num 0x42480000#32, num 0x40C00000#32, NumValue.zero,
        num 0x40C00000#32⟩ := by
  decide +kernel
/-- V45-1. -/
theorem test_evRtc_arms :
    (after (exec .evRtc { startedWith [] with cfs := ⟨true, false, false, 2, 0, 0⟩ })).cfs =
      ⟨false, true, false, 2, 0, 0⟩ := by decide
/-- V45-3. -/
theorem test_evRtc_ends :
    (after (exec .evRtc { startedWith [] with cfs := ⟨false, true, false, 1, 8, 0⟩ })).cfs =
      ⟨false, false, true, 0, 8, 0⟩ := by decide

/-! ## Host commands -/

/-- The operands of the small configuration. -/
def smallOperands : Vector Word 16 :=
  operands [2#32, 0x42340000#32, 0x425C0000#32, 0x41200000#32, 0x3F800000#32, 0x3F800000#32, 0x40400000#32, 2#32,
    0x40000000#32, 0x43E10000#32, 0x40900000#32]

/-- L3-1 step 1. -/
theorem test_init :
    after (exec .init { State.reset with A := smallOperands }) =
      { State.reset with
        A := smallOperands
        cfg := smallCfg
        ctrl := ⟨true, false, false, false⟩
        trace := [.adcInit, .tmrInit, .rtcInit] } := by decide
/-- V47-1: an update interval of 0. -/
theorem test_init_refuses_interval :
    (after (exec .init { State.reset with A := smallOperands.set 0 0#32 })).rc = .errArg := by decide
/-- V47-10. -/
theorem test_deinit :
    (after (exec .deinit (startedWith [fresh]))).ctrl = ⟨false, false, false, false⟩ ∧
    (after (exec .deinit (startedWith [fresh]))).nPhases = 0 := by decide
/-- The example of R203. -/
theorem test_start :
    (after (exec .start (stoppedWith []))).ctrl = ⟨true, true, true, true⟩ ∧
    (after (exec .start (stoppedWith []))).trace = [.adcStart, .tmrStart, .rtcStart] := by decide
/-- V47-8. -/
theorem test_start_before_init : (after (exec .start State.reset)).rc = .errState := by decide
/-- The example of R204. -/
theorem test_stop :
    (after (exec .stop (startedWith [fresh]))).ctrl = ⟨true, false, false, false⟩ ∧
    (after (exec .stop (startedWith [fresh]))).trace = [.adcStop, .tmrStop, .rtcStop] := by decide
/-- V47-13: the second slot. -/
theorem test_phaseRegister :
    (after (exec .phaseRegister (stoppedWith [fresh]))).R[0] = 1#32 ∧
    (after (exec .phaseRegister (stoppedWith [fresh]))).nPhases = 2 := by decide
/-- V47-11: every slot registered. -/
theorem test_phaseRegister_full :
    (after (exec .phaseRegister (stoppedWith [fresh, fresh, fresh, fresh]))).rc = .errFull := by decide
/-- V47-14. -/
theorem test_phaseLoadCal :
    (slot0 (after (exec (.phaseLoadCal 0)
      { stoppedWith [fresh] with A := operands [0x3F000000#32, 0x3F000000#32, 0x3E800000#32, 0xC0100000#32] }))).coef =
      ⟨num 0x3F000000#32, num 0x3F000000#32, num 0x3E800000#32, num 0xC0100000#32⟩ := by decide
/-- V44-1. -/
theorem test_phaseCalibrate :
    (after (exec (.phaseCalibrate 0 1)
      { startedWith [fresh] with A := operands [0x40800000#32, 0x40C00000#32] })).ctrlWord = 0x1B#32 ∧
    (after (exec (.phaseCalibrate 0 1)
      { startedWith [fresh] with A := operands [0x40800000#32, 0x40C00000#32] })).trace =
      [.adcStop, .tmrStop, .adcStart] := by decide
/-- V44-2: no line cycle. -/
theorem test_phaseCalibrate_refuses :
    (after (exec (.phaseCalibrate 0 0)
      { startedWith [fresh] with A := operands [0x40800000#32, 0x40C00000#32] })).rc = .errArg := by decide
/-- V44-9: the RTC is started if it was stopped. -/
theorem test_globalCalibrate :
    (after (exec .globalCalibrate
      { stoppedWith [fresh] with A := operands [2#32, 0x3F000000#32, 0x42480000#32] })).cfs =
      ⟨true, false, false, 2, 0, 0⟩ ∧
    (after (exec .globalCalibrate
      { stoppedWith [fresh] with A := operands [2#32, 0x3F000000#32, 0x42480000#32] })).trace =
      [.adcStop, .tmrStop, .rtcStart] := by decide
/-- V47-18: an accumulator just below the meter constant. -/
theorem test_energySet :
    (after (exec .energySet { stoppedWith [] with A := operands [0x41180000#32] })).ledger.accOf .actImp =
      num 0x41180000#32 := by decide
/-- V47-19: an accumulator at the meter constant. -/
theorem test_energySet_refuses :
    (after (exec .energySet { stoppedWith [] with A := operands [0x41200000#32] })).rc = .errArg := by decide

/-- The ledger at the end of L3-1: 2 Ws and one pulse for `ACT_IMP` and `APP_IMP`. -/
def meteredLedger : Ledger :=
  ⟨EnergyUnits.cleared, ((Vector.replicate 8 NumValue.zero).set 0 (num 0x40000000#32)).set 2 (num 0x40000000#32),
    ((Vector.replicate 8 0).set 0 1).set 2 1⟩

/-- The example of R208. -/
theorem test_energyGet :
    (after (exec .energyGet { stoppedWith [] with ledger := meteredLedger })).R =
      #v[0x40000000#32, 0#32, 0x40000000#32, 0#32, 0#32, 0#32, 0#32, 0#32, 1#32, 0#32, 1#32, 0#32, 0#32, 0#32, 0#32,
        0#32] := by decide
/-- V47-22. -/
theorem test_consGet :
    (after (exec .consGet { stoppedWith [] with ledger := meteredLedger })).R[0] = 0x41400000#32 := by decide +kernel

/-- The slot after the timer tick of L3-1. -/
def measuredSlot : Slot :=
  { fresh with
    sig := ⟨false, true, false⟩
    status := ⟨false, true, false, false, false⟩
    meas :=
      ⟨num 0x40000000#32, num 0x40400000#32, num 0x42480000#32, num 0x40C00000#32, NumValue.zero, num 0x40C00000#32⟩ }

/-- The example of R209. -/
theorem test_statusGet : (after (exec (.statusGet 0) (startedWith [measuredSlot]))).R[0] = 2#32 := by decide
/-- V47-23. -/
theorem test_statusGet_unregistered : (after (exec (.statusGet 1) (startedWith [measuredSlot]))).rc = .errPhase := by
  decide
theorem test_vrmsGet : (after (exec (.vrmsGet 0) (startedWith [measuredSlot]))).R[0] = 0x40000000#32 := by decide
theorem test_irmsGet : (after (exec (.irmsGet 0) (startedWith [measuredSlot]))).R[0] = 0x40400000#32 := by decide
theorem test_flineGet : (after (exec (.flineGet 0) (startedWith [measuredSlot]))).R[0] = 0x42480000#32 := by decide
theorem test_pGet : (after (exec (.pGet 0) (startedWith [measuredSlot]))).R[0] = 0x40C00000#32 := by decide
theorem test_qGet : (after (exec (.qGet 0) (startedWith [measuredSlot]))).R[0] = 0x00000000#32 := by decide
theorem test_sGet : (after (exec (.sGet 0) (startedWith [measuredSlot]))).R[0] = 0x40C00000#32 := by decide
/-- V47-24. -/
theorem test_measGet :
    (after (exec (.measGet 0) (startedWith [measuredSlot]))).R.toList.take 6 =
      [0x40000000#32, 0x40400000#32, 0x42480000#32, 0x40C00000#32, 0#32, 0x40C00000#32] := by decide
/-- V47-25: the flag is answered once. -/
theorem test_measReady :
    (after (exec (.measReady 0) (startedWith [measuredSlot]))).R[0] = 1#32 ∧
    (after (exec (.measReady 0) (after (exec (.measReady 0) (startedWith [measuredSlot]))))).R[0] = 0#32 := by decide
/-- L3-4 step 14. -/
theorem test_phaseCalGet :
    (after (exec (.phaseCalGet 0)
      (startedWith [{ fresh with
        coef := ⟨num 0x3F000000#32, num 0x3F000000#32, num 0x3E800000#32, num 0xC0100000#32⟩
        ang := { fresh.ang with status := .ok } }]))).R.toList.take 5 =
      [0x3F000000#32, 0x3F000000#32, 0x3E800000#32, 0xC0100000#32, 1#32] := by decide
/-- V44-11. -/
theorem test_seqStatus :
    (after (exec .seqStatus (calibrating fresh))).R.toList.take 3 = [1#32, 0#32, 0#32] := by decide
/-- The example of R219, with V60-4's fault word. -/
theorem test_statGet :
    (after (exec .statGet { startedWith [fresh] with fault := ⟨true, true⟩ })).R.toList.take 3 =
      [15#32, 1#32, 3#32] := by
  decide

/-! ## The host port and the step -/

/-- R89: `EV_ADC` written by the host. -/
theorem test_host_cannot_issue_events :
    (after (step { State.reset with inbox := [.hostWrite 0 32 0x10000000#32] })).rc = .errOpcode := by decide
/-- V20-6: a misaligned write. -/
theorem test_misaligned_write :
    (after (step { State.reset with inbox := [.hostWrite 0x42 32 1#32] })).fault = ⟨false, true⟩ := by decide
/-- The window is 0x100 bytes (R60). -/
theorem test_window_ends :
    continues (step { State.reset with inbox := [.hostRead 0x100 32] }) = false ∧
    continues (step { State.reset with inbox := [.hostRead 0x0FC 32] }) = true := by decide
/-- The word placed where the step takes its next operation runs. -/
theorem test_withFetchWord :
    continues (step (State.reset.withFetchWord 32 0x23000000)) = true ∧
    after (step (State.reset.withFetchWord 32 0x23000000)) =
      { State.reset with trace := [.adcStop, .tmrStop, .rtcStop] } := by decide

/-! ## Witnesses: states that meet the hypotheses of the statements -/

/-- `DecodeOfEncodeIsTheOperation`: an operation of each operand shape, its fields at their largest values. -/
theorem witness_DecodeOfEncodeIsTheOperation :
    Instr.init.wellFormed = true ∧ (Instr.measGet 255).wellFormed = true ∧
    (Instr.phaseCalibrate 255 65535).wellFormed = true := by decide

/-- `EncodeOfDecodeIsTheWord`. -/
theorem witness_EncodeOfDecodeIsTheWord :
    decode 0x26FFFFFF#32 = .ok (.phaseCalibrate 255 65535) ∧ decode 0x01000000#32 = .ok (.zcdDetect 0) := by decide

/-- `StepRunsTheDeliveredOperation`, its clauses in order. -/
theorem witness_StepRunsTheDeliveredOperation :
    ((startedWith [fresh]).withFetchWord 32 0x0A000000).inbox = .op 0x0A000000#32 :: [] ∧
    decode 0x0A000000#32 = .ok .ledDecay ∧
    ({ State.reset with inbox := [.hostWrite 0 32 0x36000000#32] }).inbox =
      .hostWrite State.reset.par.hostBase 32 0x36000000#32 :: [] ∧
    decode 0x36000000#32 = .ok .statGet ∧ Instr.statGet.opClass = .host ∧
    ({ startedWith [fresh] with inbox := [.adc [⟨2, 3, -2⟩], .tmr] }).inbox = .adc [⟨2, 3, -2⟩] :: [.tmr] ∧
    ({ State.reset with inbox := [.tmr] }).inbox = .tmr :: [] ∧
    ({ State.reset with inbox := [.rtc] }).inbox = .rtc :: [] ∧
    ({ State.reset with inbox := [.seq] }).inbox = .seq :: [] := by decide

/-- `HostWriteOfOpwDecodes`: the words on both sides of the host opcodes, the first and the last of them, a nonzero
unused phase field and a nonzero unused immediate. -/
theorem witness_HostWriteOfOpwDecodes :
    ({ State.reset with inbox := [.hostWrite 0 32 0x1F000000#32] }).inbox =
      .hostWrite State.reset.par.hostBase 32 0x1F000000#32 :: [] ∧
    opField 0x1F000000#32 < 0x20 ∧ 0x36 < opField 0x37000000#32 ∧
    [0x20010000#32, 0x20000000#32, 0x26FFFFFF#32, 0x36000000#32, 0x36000001#32].map
      (fun w => (opField w, reservedFieldSet w)) =
      [(0x20, true), (0x20, false), (0x26, false), (0x36, false), (0x36, true)] := by decide

/-- `HostPortRegisterMap`: every range of offsets at its ends; no offset belongs to two of them. -/
theorem witness_HostPortRegisterMap :
    ({ State.reset with inbox := [.hostRead 0x0FC 32] }).inbox =
      .hostRead (State.reset.par.hostBase + 0x0FC) 32 :: [] ∧
    ({ State.reset with inbox := [.hostWrite 0x07C 32 5#32] }).inbox =
      .hostWrite (State.reset.par.hostBase + 0x07C) 32 5#32 :: [] ∧
    0x040 = 0x040 + 4 * (0 : Fin 16).val ∧ 0x07C = 0x040 + 4 * (15 : Fin 16).val ∧
    0x080 = 0x080 + 4 * (0 : Fin 16).val ∧ 0x0BC = 0x080 + 4 * (15 : Fin 16).val ∧
    (∀ off ∈ [0x008, 0x03C, 0x0C0, 0x0FC],
      off % 4 = 0 ∧ ((0x008 ≤ off ∧ off < 0x040) ∨ (0x0C0 ≤ off ∧ off < 0x100))) ∧
    (∀ off ∈ [0x004, 0x03C, 0x080, 0x0FC],
      off % 4 = 0 ∧ ((0x004 ≤ off ∧ off < 0x040) ∨ (0x080 ≤ off ∧ off < 0x100))) := by decide

/-- `InadmissibleAccessSetsBusFault`: a misaligned access at the end of the window, and a narrow one. -/
theorem witness_InadmissibleAccessSetsBusFault :
    ({ State.reset with inbox := [.hostWrite 0x0FF 32 1#32] }).inbox =
      .hostWrite (State.reset.par.hostBase + 0x0FF) 32 1#32 :: [] ∧
    ({ State.reset with inbox := [.hostRead 0x000 16] }).inbox =
      .hostRead (State.reset.par.hostBase + 0x000) 16 :: [] ∧
    (0x0FF < 0x100 ∧ (0x0FF % 4 ≠ 0 ∨ 32 ≠ 32)) ∧ (0x000 < 0x100 ∧ (0x000 % 4 ≠ 0 ∨ 16 ≠ 32)) := by decide

/-- `OnlyAccessOutsideWindowStops`: both sides of both ends of a window at 0x100. -/
theorem witness_OnlyAccessOutsideWindowStops :
    [0x0FC, 0x100, 0x1FC, 0x200].map (fun addr =>
      continues (step { State.reset with
        par := { Params.default with hostBase := 0x100 }, inbox := [.hostRead addr 32] })) =
      [false, true, true, false] := by decide

/-- `PowerOnResetClearsTheBlock`: a block that has run. -/
theorem witness_PowerOnResetClearsTheBlock :
    ({ startedWith [measuredSlot] with inbox := [.powerOn, .tmr] }).inbox = .powerOn :: [.tmr] := by decide

/-- `StoreKeepsOrWraps`: 8-bit fields at the ends of their ranges and just outside. -/
theorem witness_StoreKeepsOrWraps :
    [0, 255, 256, -1].map (storeUnsigned 8) = [⟨0, false⟩, ⟨255, false⟩, ⟨0, true⟩, ⟨255, true⟩] ∧
    [-128, 127, 128, -129].map (storeSigned 8) = [⟨-128, false⟩, ⟨127, false⟩, ⟨-128, true⟩, ⟨127, true⟩] := by
  decide

/-- `NumCodecRejectsNonFiniteWords`: the largest finite word, and the smallest that is not. -/
theorem witness_NumCodecRejectsNonFiniteWords :
    B.dec 0x7F7FFFFF#32 = some (num 0x7F7FFFFF#32) ∧ (0x7F800000#32).extractLsb' 23 8 = 0xFF#8 := by decide

/-- A slot whose tracker and sample are as given. -/
abbrev tracked (last : Int) (debounce synced : Bool) (cyc : Nat) (v : Int) : Slot :=
  { fresh with zc := ⟨last, debounce, synced, cyc⟩, ws := ⟨v, 0, 0⟩ }

/-- `ZcdDetectUpdatesTracker`, its clauses in order: the last count in range, the first past it, a first crossing, and
the three ways not to cross. -/
theorem witness_ZcdDetectUpdatesTracker :
    (startedWith [tracked 0 false true 65534 1]).ph[0]? = some (tracked 0 false true 65534 1) ∧
    65534 + 1 < 2 ^ State.reset.par.cycW ∧ 2 ^ State.reset.par.cycW ≤ 65535 + 1 ∧
    (∀ p ∈ [tracked 0 false true 65534 1, tracked 0 false true 65535 1],
      p.zc.debounce = false ∧ p.zc.last ≤ 0 ∧ 0 < p.ws.v ∧ p.zc.synced = true) ∧
    (∀ p ∈ [tracked 0 false false 0 1],
      p.zc.debounce = false ∧ p.zc.last ≤ 0 ∧ 0 < p.ws.v ∧ p.zc.synced = false) ∧
    (∀ p ∈ [tracked 0 true true 0 1, tracked 1 false true 0 1, tracked 0 false true 0 0],
      p.zc.debounce = true ∨ 0 < p.zc.last ∨ p.ws.v ≤ 0) := by decide

/-- The statements whose only hypothesis is a registered slot: `AccResetAndAccLoad`,
`HardResetClearsAllButCalibration`, `AngleEnterPrimesTheSubMode`, `SingleGettersReadTheSlot`,
`RecordGettersReadTheSlot`. -/
theorem witness_registered_slot :
    (startedWith [fresh, measuredSlot]).ph[1]? = some measuredSlot := by decide
theorem witness_AccResetAndAccLoad : (startedWith [fresh]).ph[0]? = some fresh := by decide
theorem witness_HardResetClearsAllButCalibration : (startedWith [measuredSlot]).ph[0]? = some measuredSlot := by decide
theorem witness_AngleEnterPrimesTheSubMode : (startedWith [fresh]).ph[0]? = some fresh := by decide
theorem witness_SingleGettersReadTheSlot : (startedWith [measuredSlot]).ph[0]? = some measuredSlot := by decide
theorem witness_RecordGettersReadTheSlot : (startedWith [measuredSlot]).ph[0]? = some measuredSlot := by decide

/-- A slot with voltage sum `vacc` and count `n`, its sample `(1, 1, 1)`. -/
abbrev summed (vacc : Int) (n : Nat) : Slot := { fresh with live := ⟨vacc, 0, 0, 0, n⟩, ws := ⟨1, 1, 1⟩ }

/-- `AccAccumulateAddsCurrentSample`: the largest sum and count that fit, and each one past its width. -/
theorem witness_AccAccumulateAddsCurrentSample :
    (startedWith [summed 9223372036854775806 4294967294]).ph[0]? = some (summed 9223372036854775806 4294967294) ∧
    fitsSigned State.reset.par.accW (9223372036854775806 + 1 * 1) = true ∧
    4294967294 + 1 < 2 ^ State.reset.par.cntW ∧
    fitsSigned State.reset.par.accW (9223372036854775807 + 1 * 1) = false ∧
    2 ^ State.reset.par.cntW ≤ 4294967295 + 1 := by decide

/-- `PhaseSampleComposesItsMicroOperations`: a slot not yet synchronised, one within its window, one at its end. -/
theorem witness_PhaseSampleComposesItsMicroOperations :
    (tracked 1 false false 0 1).sig.calAngle = false ∧
    (slot0 (after (exec (.zcdDetect 0) (startedWith [tracked 1 false false 0 1])))).zc.synced = false ∧
    (slot0 (after (exec (.zcdDetect 0) (startedWith [tracked 0 false true 0 1])))).zc = ⟨1, true, true, 1⟩ ∧
    1 < smallCfg.updateInterval ∧
    (slot0 (after (exec (.zcdDetect 0) (startedWith [tracked 0 false true 1 1])))).zc = ⟨1, true, true, 2⟩ ∧
    smallCfg.updateInterval ≤ 2 := by decide

/-- A slot whose window of `n` samples is ready. -/
abbrev windowed (n : Nat) : Slot := { fresh with snap := ⟨36, 81, 54, -6, n⟩, sig := ⟨true, false, false⟩ }

/-- `InvalidWindowZeroesOutputs`: 450 / 11 lies below the band, 450 / 8 above it. -/
theorem witness_InvalidWindowZeroesOutputs :
    (startedWith [windowed 11]).ph[0]? = some (windowed 11) ∧ (windowed 11).sig.accReady = true ∧
    B.lt (B.div smallCfg.flineCoeff (B.ofInt 11)) smallCfg.flineTolLow = true ∧
    B.lt smallCfg.flineTolHigh (B.div smallCfg.flineCoeff (B.ofInt 8)) = true := by decide

/-- `ValidWindowIsMeasured`: 450 / 10 is the lower end of the band. -/
theorem witness_ValidWindowIsMeasured :
    (startedWith [windowed 10]).ph[0]? = some (windowed 10) ∧ (windowed 10).sig.accReady = true ∧
    B.div smallCfg.flineCoeff (B.ofInt 10) = smallCfg.flineTolLow ∧
    B.lt (B.div smallCfg.flineCoeff (B.ofInt 10)) smallCfg.flineTolLow = false ∧
    B.lt smallCfg.flineTolHigh (B.div smallCfg.flineCoeff (B.ofInt 10)) = false := by decide

/-- `TimerMeasuresReadySlotsAndPublishes`: a slot of each kind. -/
theorem witness_TimerMeasuresReadySlotsAndPublishes :
    (startedWith [fresh, windowed 9]).ctrl.tmrEn = true ∧
    (startedWith [fresh, windowed 9]).ph[0]? = some fresh ∧ fresh.sig.accReady = false ∧
    (startedWith [fresh, windowed 9]).ph[1]? = some (windowed 9) ∧ (windowed 9).sig.accReady = true := by decide

/-- A slot in the angle sub-mode. -/
abbrev angled (lastV lastI : Int) (cnt : Nat) (v i : Int) : Slot :=
  { fresh with
    ang := ⟨lastV, lastI, NumValue.zero, NumValue.zero, cnt, .none⟩, ws := ⟨v, i, 0⟩, sig := ⟨false, false, true⟩ }

/-- `AngleSampleAveragesCrossings`, its clauses in order: the counter at `update_interval`, past it, past its width,
then one crossing and none. -/
theorem witness_AngleSampleAveragesCrossings :
    (startedWith [angled 0 0 1 1 1]).ph[0]? = some (angled 0 0 1 1 1) ∧ (angled 0 0 1 1 1).sig.calAngle = true ∧
    (∀ p ∈ [angled 0 0 1 1 1, angled (-1) 0 2 1 1, angled 0 (-1) 4294967295 1 1],
      (p.ang.lastV ≤ 0 ∧ 0 < p.ws.v) ∧ (p.ang.lastI ≤ 0 ∧ 0 < p.ws.i)) ∧
    1 + 1 ≤ smallCfg.updateInterval ∧ smallCfg.updateInterval < 2 + 1 ∧ 4294967295 + 1 = 2 ^ 32 ∧
    (∀ p ∈ [angled 0 1 0 1 1, angled 0 0 0 0 1],
      ((p.ang.lastV ≤ 0 ∧ 0 < p.ws.v) ∧ ¬(p.ang.lastI ≤ 0 ∧ 0 < p.ws.i)) ∨
        (¬(p.ang.lastV ≤ 0 ∧ 0 < p.ws.v) ∧ (p.ang.lastI ≤ 0 ∧ 0 < p.ws.i))) ∧
    (∀ p ∈ [angled 1 1 0 1 1, angled 0 0 0 0 0],
      ¬(p.ang.lastV ≤ 0 ∧ 0 < p.ws.v) ∧ ¬(p.ang.lastI ≤ 0 ∧ 0 < p.ws.i)) := by decide

/-- `LedDecayAgesTheLeds`: counters at the last value that still counts. -/
theorem witness_LedDecayAgesTheLeds :
    4294967294 + 1 < 2 ^ 32 ∧ State.reset.led.act.cnt + 1 < 2 ^ 32 ∧ State.reset.led.react.cnt + 1 < 2 ^ 32 ∧
    State.reset.led.app.cnt + 1 < 2 ^ 32 := by decide

/-- `AddEnergyRollsOverOnce`: a sum equal to `meter_constant`, and one below it. -/
theorem witness_AddEnergyRollsOverOnce :
    B.le smallCfg.meterConstant
      (B.add (meteredLedger.accOf .actImp) (B.abs (num 0x41000000#32))) = true ∧
    B.le smallCfg.meterConstant
      (B.add (meteredLedger.accOf .actImp) (B.abs (num 0xC0400000#32))) = false := by decide

/-- `EnergyRouteFollowsTheQuadrant`: zero (of either sign) counts as positive. -/
theorem witness_EnergyRouteFollowsTheQuadrant :
    B.le NumValue.zero (num 0x00000000#32) = true ∧ B.le NumValue.zero (num 0x80000000#32) = true ∧
    B.le NumValue.zero (num 0x80000001#32) = false := by decide

/-- A block about to take a sample. -/
abbrev sampling (p : Slot) : State := { startedWith [p] with smp := [⟨2, 3, -2⟩] }

/-- `LedgerStaysBelowMeterConstant`, both clauses. -/
theorem witness_LedgerStaysBelowMeterConstant :
    ({ sampling fresh with ledger := meteredLedger }).par.num = .binary32 ∧
    B.le smallCfg.meterConstant ⟨0x7E800000⟩ = true ∧
    ({ sampling fresh with ledger := meteredLedger }).LedgerBounded ∧
    ({ sampling fresh with ledger := meteredLedger }).UnitsBounded ∧
    ({ sampling fresh with ledger := meteredLedger }).AddsLand ∧
    continues (exec .evAdc { sampling fresh with ledger := meteredLedger }) = true :=
  ⟨rfl, by decide, fun c => by cases c <;> decide, by decide, fun c => by cases c <;> decide, by decide⟩

/-- `AdcOnlyCountsDuringWindow`: the last count in range, and the one past it. -/
theorem witness_AdcOnlyCountsDuringWindow :
    ({ sampling fresh with cfs := ⟨false, true, false, 2, 4294967294, 0⟩ }).adcEnabled = true ∧
    ({ sampling fresh with cfs := ⟨false, true, false, 2, 4294967295, 0⟩ }).adcEnabled = true ∧
    4294967294 + 1 < 2 ^ 32 ∧ 4294967295 + 1 = 2 ^ 32 := by decide

/-- `AdcProcessesPhasesThenEnergy`: a slot in the sub-mode, and a slot outside it. -/
theorem witness_AdcProcessesPhasesThenEnergy :
    (sampling fresh).adcEnabled = true ∧ (sampling fresh).cfs.running = false ∧
    (∀ p ∈ (sampling fresh).ph, p.sig.calAngle = false) ∧
    (sampling (angled 0 0 1 1 1)).adcEnabled = true ∧
    (∃ p ∈ (sampling (angled 0 0 1 1 1)).ph, p.sig.calAngle = true) := by decide

/-- `RtcGatesTheWindow`: the boundary counts of its clauses. -/
theorem witness_RtcGatesTheWindow :
    ({ startedWith [] with cfs := ⟨true, false, false, 2, 0, 0⟩ }).ctrl.rtcEn = true ∧
    (2 ≤ 4294967296 ∧ 4294967296 ≤ 2 ^ 32) ∧
    ({ startedWith [] with cfs := ⟨false, true, false, 1, 8, 0⟩ }).cfs.rtcCnt = 1 ∧
    (startedWith []).cfs.running = false := by decide

/-- `DisabledOperationsDoNothing`, its clauses in order. -/
theorem witness_DisabledOperationsDoNothing :
    State.reset.ctrl.adcEn = false ∧ (startedWith [fresh]).smp.length ≠ (startedWith [fresh]).ph.length ∧
    (∃ tr ∈ ({ startedWith [fresh] with smp := [⟨8388608, 0, 0⟩] }).smp, ¬ tr.Fits State.reset.par.sampleW) ∧
    State.reset.ctrl.tmrEn = false ∧ State.reset.ctrl.rtcEn = false ∧ State.reset.seq.state = .idle ∧
    (calibrating fresh).seq.state = .pcalW1 ∧ (calibrating fresh).ph[0]? = some fresh ∧
    (angled 0 0 1 1 1).sig.calAngle = true ∧
    State.reset.cfs.finished = false ∧ State.reset.nPhases ≤ 0 ∧
    fresh.sig.calAngle = false ∧ fresh.sig.accReady = false := by decide

/-- `PhaseCalibrateStartsTheSequence`: one line cycle. -/
theorem witness_PhaseCalibrateStartsTheSequence :
    (startedWith [fresh]).busy = false ∧ (startedWith [fresh]).ctrl.init = true ∧
    (startedWith [fresh]).ph[0]? = some fresh ∧ 1 ≠ 0 ∧
    B.dec (operands [0x40800000#32, 0x40C00000#32])[0] = some (num 0x40800000#32) ∧
    B.dec (operands [0x40800000#32, 0x40C00000#32])[1] = some (num 0x40C00000#32) ∧
    B.lt NumValue.zero (num 0x40800000#32) = true ∧ B.lt NumValue.zero (num 0x40C00000#32) = true := by decide

/-- `GlobalCalibrateArmsTheWindow`: one RTC cycle. -/
theorem witness_GlobalCalibrateArmsTheWindow :
    (stoppedWith []).busy = false ∧ (stoppedWith []).ctrl.init = true ∧
    (operands [1#32, 0x3F000000#32, 0x42480000#32])[0] ≠ 0#32 ∧
    B.dec (operands [1#32, 0x3F000000#32, 0x42480000#32])[1] = some (num 0x3F000000#32) ∧
    B.dec (operands [1#32, 0x3F000000#32, 0x42480000#32])[2] = some (num 0x42480000#32) ∧
    B.lt NumValue.zero (num 0x3F000000#32) = true ∧ B.lt NumValue.zero (num 0x42480000#32) = true := by decide

/-- `SeqStepComputesCoefficients`: `sqrt(20/5)/4` is positive, `sqrt(0/5)/6` is not. -/
theorem witness_SeqStepComputesCoefficients :
    (calibrating (calibrationSlot 45 30)).seq.state = .pcalW1 ∧
    (calibrating (calibrationSlot 45 30)).ph[0]? = some (calibrationSlot 45 30) ∧
    (calibrationSlot 45 30).sig.accReady = true ∧
    B.lt NumValue.zero (B.div (B.sqrt (B.div (B.ofInt 20) (B.ofInt 5))) (num 0x40800000#32)) =
      true ∧
    B.lt NumValue.zero (B.div (B.sqrt (B.div (B.ofInt 45) (B.ofInt 5))) (num 0x40C00000#32)) =
      true ∧
    B.lt NumValue.zero (B.mul (num 0x3F000000#32) (num 0x3F000000#32)) = true ∧
    B.lt NumValue.zero (B.div (B.sqrt (B.div (B.ofInt 0) (B.ofInt 5))) (num 0x40C00000#32)) =
      false := by decide +kernel

/-- A phase calibration whose target has left the angle sub-mode. -/
abbrev corrected : State :=
  { startedWith [{ fresh with ang := ⟨5, 1, num 0x3FC00000#32, num 0x3F800000#32, 3, .ok⟩ }] with
    seq := { Seq.idle with state := .pcalW2 } }

/-- `SeqStepComputesPhaseCorrection`. -/
theorem witness_SeqStepComputesPhaseCorrection :
    corrected.seq.state = .pcalW2 ∧ corrected.ph[corrected.seq.target]? = some (slot0 corrected) ∧
    (slot0 corrected).sig.calAngle = false := by decide

/-- A global calibration whose window is finished. -/
abbrev windowFinished (n : Nat) : State :=
  { startedWith [] with
    cfs := ⟨false, false, true, 0, n, 0⟩
    seq := { Seq.idle with state := .gcalW, rtcCycles := 2, rtcPeriod := num 0x3F000000#32 } }

/-- `SeqStepComputesSamplingFrequency`: one sample counted, and none. -/
theorem witness_SeqStepComputesSamplingFrequency :
    (windowFinished 1).seq.state = .gcalW ∧ (windowFinished 1).cfs.finished = true ∧
    (windowFinished 1).cfs.adcCnt ≠ 0 ∧ (windowFinished 0).cfs.adcCnt = 0 := by decide

/-- `OnlySeqStepMovesARunningSequence` and `BusyRefusesEightCommands`: a running calibration, a command it refuses and
one it admits. -/
theorem witness_OnlySeqStepMovesARunningSequence :
    (calibrating fresh).busy = true ∧ Instr.energyGet ≠ .seqStep ∧
    continues (exec .energyGet (calibrating fresh)) = true := by decide
theorem witness_BusyRefusesEightCommands :
    (calibrating fresh).busy = true ∧ refusedWhileBusy .stop = true ∧
    Instr.energySet.opClass = .host ∧ refusedWhileBusy .energySet = false := by decide

/-- `WrongStateOrSlotIsRefused`: a running block, a block before INIT, and the first unregistered slot. -/
theorem witness_WrongStateOrSlotIsRefused :
    (startedWith [fresh]).busy = false ∧ (startedWith [fresh]).ctrl.adcEn = true ∧
    State.reset.busy = false ∧ State.reset.ctrl.init = false ∧
    (startedWith [fresh]).nPhases ≤ 1 ∧ (startedWith [fresh]).ctrl.init = true := by decide

/-- `IllegalOperandIsRefused`: operands at the first illegal values, in states that pass the earlier checks. -/
theorem witness_IllegalOperandIsRefused :
    (stoppedWith [fresh]).busy = false ∧ (stoppedWith [fresh]).ctrl.adcEn = false ∧
    (stoppedWith [fresh]).ctrl.tmrEn = false ∧ 65535 < (65536#32).toNat ∧ 0 < (stoppedWith [fresh]).nPhases ∧
    (stoppedWith [fresh]).ctrl.init = true ∧ B.dec 0x7F800000#32 = none ∧
    B.dec 0x00000000#32 = some NumValue.zero ∧ B.lt NumValue.zero NumValue.zero = false ∧
    B.lt smallCfg.meterConstant smallCfg.meterConstant = false ∧
    B.le NumValue.zero (num 0x80000001#32) = false := by decide

/-- `FailedCommandChangesOnlyResultCode`: START before INIT. -/
theorem witness_FailedCommandChangesOnlyResultCode :
    Instr.start.opClass = .host ∧ continues (exec .start State.reset) = true ∧
    (after (exec .start State.reset)).rc ≠ .ok := by decide

/-- `ReadCommandsAreIdempotent`. -/
theorem witness_ReadCommandsAreIdempotent :
    readsOnly (.measGet 0) = true ∧ continues (exec (.measGet 0) (startedWith [measuredSlot])) = true := by decide

/-- `InitLoadsTheConfiguration`. -/
theorem witness_InitLoadsTheConfiguration :
    State.reset.busy = false ∧ State.reset.ctrl.adcEn = false ∧ State.reset.ctrl.tmrEn = false ∧
    1 ≤ smallOperands[0].toNat ∧ smallOperands[0].toNat ≤ 65535 ∧ smallOperands[7].toNat ≤ 2 ^ 32 - 2 ∧
    [smallOperands[1], smallOperands[2], smallOperands[3], smallOperands[4], smallOperands[5], smallOperands[6],
        smallOperands[8], smallOperands[9], smallOperands[10]].map B.dec =
      [some smallCfg.flineTolLow, some smallCfg.flineTolHigh, some smallCfg.meterConstant, some smallCfg.noLoadP,
        some smallCfg.sagThreshold, some smallCfg.swellThreshold, some smallCfg.fs, some smallCfg.flineCoeff,
        some smallCfg.degPerSample] ∧
    B.lt NumValue.zero smallCfg.meterConstant = true ∧ B.le NumValue.zero smallCfg.noLoadP = true ∧
    B.lt NumValue.zero smallCfg.fs = true := by decide

/-- `LifecycleCommandsDriveTheSources`. -/
theorem witness_LifecycleCommandsDriveTheSources :
    (stoppedWith [fresh]).busy = false ∧ (stoppedWith [fresh]).ctrl.init = true := by decide

/-- `PhaseRegisterAppendsASlot`: the last free slot, and none. -/
theorem witness_PhaseRegisterAppendsASlot :
    (stoppedWith [fresh, fresh, fresh]).busy = false ∧ (stoppedWith [fresh, fresh, fresh]).ctrl =
      ⟨true, false, false, false⟩ ∧
    (stoppedWith [fresh, fresh, fresh]).nPhases < State.reset.par.nPhaseMax ∧
    State.reset.par.nPhaseMax ≤ (stoppedWith [fresh, fresh, fresh, fresh]).nPhases := by decide

/-- `PhaseLoadCalLoadsCoefficients`. -/
theorem witness_PhaseLoadCalLoadsCoefficients :
    (stoppedWith [fresh]).busy = false ∧ (stoppedWith [fresh]).ph[0]? = some fresh ∧
    (operands [0x3F000000#32, 0x3F000000#32, 0x3E800000#32, 0xC0100000#32]).toList.take 4 =
      [0x3F000000#32, 0x3F000000#32, 0x3E800000#32, 0xC0100000#32] ∧
    [0x3F000000#32, 0x3E800000#32, 0xC0100000#32].map B.dec =
      [some (num 0x3F000000#32), some (num 0x3E800000#32), some (num 0xC0100000#32)] ∧
    B.lt NumValue.zero (num 0x3F000000#32) = true ∧ B.lt NumValue.zero (num 0x3E800000#32) = true := by decide

/-- `EnergySetRestoresTheLedger`: an accumulator just below `meter_constant`, a lifetime counter at its largest. -/
theorem witness_EnergySetRestoresTheLedger :
    (stoppedWith []).ctrl.init = true ∧
    ∀ c : Fin 8,
      B.dec ((Vector.replicate 16 0xFFFFFFFF#32).set c.val 0x411FFFFF#32)[c.val] =
        some (Vector.replicate 8 (num 0x411FFFFF#32))[c] ∧
      B.le NumValue.zero (num 0x411FFFFF#32) = true ∧
      B.lt (num 0x411FFFFF#32) smallCfg.meterConstant = true ∧
      ((Vector.replicate 16 0xFFFFFFFF#32).set c.val 0x411FFFFF#32)[8 + c.val].toNat < 2 ^ State.reset.par.lifeW := by
  decide

/-- `EnergyGetAndConsGetReadTheLedger`: the hypothesis of its second part. -/
theorem witness_EnergyGetAndConsGetReadTheLedger : (stoppedWith []).ctrl.init = true := by decide

/-- `MeasReadyTestsAndClears`. -/
theorem witness_MeasReadyTestsAndClears :
    (startedWith [measuredSlot]).ph[0]? = some measuredSlot ∧
    continues (exec (.measReady 0) (startedWith [measuredSlot])) = true := by decide

/-- `OperationsKeepOperandsFaultsAndTrace`: a state with a fault bit set. -/
theorem witness_OperationsKeepOperandsFaultsAndTrace :
    ({ startedWith [fresh] with fault := ⟨true, false⟩ }).fault.ovf = true ∧
    continues (exec .stop { startedWith [fresh] with fault := ⟨true, false⟩ }) = true := by decide

/-- `EachRecordHasItsWriters`: an operation that is none of the writers named, and INIT refused. -/
theorem witness_EachRecordHasItsWriters :
    Instr.ledDecay.opClass ≠ .host ∧ Instr.ledDecay ≠ .energyRoute ∧ Instr.ledDecay ≠ .evAdc ∧
    Instr.ledDecay ≠ .energySet ∧ Instr.ledDecay ≠ .init ∧ Instr.ledDecay ≠ .seqStep ∧
    Instr.ledDecay ≠ .phaseRegister ∧ Instr.ledDecay ≠ .deinit ∧
    continues (exec .ledDecay (startedWith [])) = true ∧ (startedWith []).ctrl.adcEn = true ∧
    continues (exec .init (startedWith [])) = true := by decide

/-- `MicroOperationsTouchOnlyTheirSlot`. -/
theorem witness_MicroOperationsTouchOnlyTheirSlot :
    (Instr.accReset 1).opClass = .micro ∧ Instr.accReset 1 ≠ .ledDecay ∧ Instr.accReset 1 ≠ .energyRoute ∧
    Instr.accReset 1 ≠ .seqStep ∧ continues (exec (.accReset 1) (startedWith [fresh, fresh])) = true ∧
    0 ≠ (Instr.accReset 1).phase := by decide

/-- A started block whose agents have steps to take. -/
def running : State :=
  { startedWith [windowed 9] with
    ledger := meteredLedger, inbox := [.adc [⟨2, 3, -2⟩], .tmr, .hostWrite 0 32 0x23000000#32] }

theorem witness_StepKeepsFieldsInRange :
    running.par.legal = true ∧ running.FieldsInRange ∧ continues (step running) = true :=
  ⟨by decide,
    ⟨by decide, by decide, by decide, by decide, fun c => by cases c <;> decide, by decide, by decide, by decide,
      by decide, by decide, by decide, by decide, by decide, by decide⟩,
    by decide⟩
theorem witness_StepKeepsControlCoherent :
    running.ControlCoherent ∧ (calibrating fresh).ControlCoherent ∧ continues (step running) = true :=
  ⟨⟨by decide, by decide, by decide, by decide, by decide, by decide⟩,
    ⟨by decide, by decide, by decide, by decide, by decide, by decide⟩, by decide⟩
theorem witness_StepKeepsSnapshotsMeasurable :
    running.AgentsOnly ∧ running.SnapshotsMeasurable ∧ continues (step running) = true := by decide
theorem witness_StepKeepsSagAndSwellExclusive :
    running.StatusExclusive ∧ continues (step running) = true := by decide
theorem witness_DebounceNeverFiltersACrossing :
    (startedWith [tracked 1 true true 1 2]).DebouncePositive ∧
    tracked 1 true true 1 2 ∈ (startedWith [tracked 1 true true 1 2]).ph ∧
    continues (step (startedWith [tracked 1 true true 1 2])) = true := by decide

/-- A phase calibration in its second stage, its target in the sub-mode, with a sample to come. -/
def inSubMode : State :=
  { calibrating (angled 0 0 1 1 1) with
    seq := { Seq.idle with state := .pcalW2 }, inbox := [.adc [⟨2, 3, -2⟩]] }

/-- `StepKeepsAngleModeOwned`. -/
theorem witness_StepKeepsAngleModeOwned :
    inSubMode.AgentsOnly ∧ inSubMode.AngleOwned ∧ (slot0 inSubMode).sig.calAngle = true ∧
    continues (step inSubMode) = true :=
  ⟨by decide,
    fun k p h c => by
      cases k with
      | zero => decide
      | succ k => simp [inSubMode, calibrating, startedWith, stoppedWith] at h,
    by decide, by decide⟩

end Sys2Proof.Tests
end

section
/-! The invariants over the whole state: every step keeps every integer field in the range its rule states (R8), and
power-on reset satisfies every invariant. The fields fall into three groups, each with one argument of its own: the
slots (by cases on `SlotChange`), the control records (by cases on `ControlChange`), and the meters, which are the
lifetime counters and the LEDs. -/

namespace Sys2Proof.Machine

/-! ## Ranges (R6, R8) -/

theorem Params.legal_iff (p : Params) :
    p.legal = true ↔
      1 ≤ p.nPhaseMax ∧ p.nPhaseMax ≤ 255 ∧ 2 ≤ p.sampleW ∧ p.sampleW ≤ 32 ∧ 2 * p.sampleW + 1 ≤ p.accW ∧
      16 ≤ p.cntW ∧ p.cntW ≤ 64 ∧ p.cycW = 16 ∧ p.lifeW = 32 := by
  simp [Params.legal, and_assoc]

theorem fitsSigned_zero (w : Nat) : fitsSigned w 0 = true := by
  rw [fitsSigned_iff]
  exact ⟨neg_nonpos.2 (by positivity), by positivity⟩

theorem fitsSigned_one {w : Nat} (hw : 2 ≤ w) : fitsSigned w 1 = true := by
  rw [fitsSigned_iff]
  have hw1 : w - 1 ≠ 0 := by omega
  have hp : (1 : Int) < 2 ^ (w - 1) := one_lt_pow₀ (by decide) hw1
  omega

/-- A cleared `uint_32` counter is in range. -/
theorem zero_lt_uint32 : (0 : Nat) < 2 ^ 32 := by decide

theorem abs_le_of_fitsSigned {w : Nat} {x : Int} (h : fitsSigned w x = true) : |x| ≤ 2 ^ (w - 1) := by
  obtain ⟨hl, hu⟩ := (fitsSigned_iff w x).1 h
  exact abs_le.2 ⟨hl, hu.le⟩

/-- A product of two samples fits a width of more than twice theirs: the legal range of `ACC_W` (R6, R29). -/
theorem fitsSigned_mul {w n : Nat} {x y : Int} (hw : 1 ≤ w) (hn : 2 * w + 1 ≤ n) (hx : fitsSigned w x = true)
    (hy : fitsSigned w y = true) : fitsSigned n (x * y) = true := by
  have hexp : w - 1 + (w - 1) < n - 1 := by omega
  have hlt : |x * y| < 2 ^ (n - 1) :=
    calc |x * y| = |x| * |y| := abs_mul x y
      _ ≤ 2 ^ (w - 1) * 2 ^ (w - 1) :=
        mul_le_mul (abs_le_of_fitsSigned hx) (abs_le_of_fitsSigned hy) (abs_nonneg y) (by positivity)
      _ = 2 ^ (w - 1 + (w - 1)) := (pow_add ..).symm
      _ < 2 ^ (n - 1) := pow_lt_pow_right₀ (by decide) hexp
  obtain ⟨hl, hu⟩ := abs_lt.1 hlt
  exact (fitsSigned_iff n _).2 ⟨hl.le, hu⟩

/-! ## The slots (R28 to R31, R36) -/

theorem cleared_fits (par : Params) : Accum.cleared.Fits par :=
  ⟨fitsSigned_zero _, fitsSigned_zero _, fitsSigned_zero _, fitsSigned_zero _, Nat.two_pow_pos _⟩

theorem blank_fits (par : Params) (coef : Coef) (sig : Signals) {ang : Angle}
    (hv : fitsSigned par.sampleW ang.lastV = true) (hi : fitsSigned par.sampleW ang.lastI = true)
    (hc : ang.cnt < 2 ^ 32) : (Slot.blank coef sig ang).Fits par :=
  ⟨fitsSigned_zero _, Nat.two_pow_pos _, cleared_fits par, cleared_fits par,
    ⟨fitsSigned_zero _, fitsSigned_zero _, fitsSigned_zero _⟩, hv, hi, hc⟩

theorem registration_fits (par : Params) (N : NumStructure) : (Slot.registration N).Fits par :=
  blank_fits par _ _ (fitsSigned_zero _) (fitsSigned_zero _) zero_lt_uint32

theorem contribution_fits {par : Params} (hl : par.legal = true) {t : Triple} (ht : t.Fits par.sampleW) :
    t.contribution.Fits par := by
  obtain ⟨_, _, hs, _, hacc, hcnt, _⟩ := (Params.legal_iff par).1 hl
  have hw : 1 ≤ par.sampleW := by omega
  obtain ⟨hv, hi, h90⟩ := ht
  exact ⟨fitsSigned_mul hw hacc hv hv, fitsSigned_mul hw hacc hi hi, fitsSigned_mul hw hacc hv hi,
    fitsSigned_mul hw hacc h90 hi, Nat.one_lt_two_pow (by omega)⟩

theorem accumulate_fits_of_legal {par : Params} (hl : par.legal = true) (t : Triple) (a : Accum) :
    (a.accumulate par t).val.Fits par := by
  obtain ⟨_, _, hs, _, hacc, _⟩ := (Params.legal_iff par).1 hl
  exact accumulate_fits (by omega) t a

section SlotOperations

variable {par : Params} {p : Slot}

theorem detectCrossing_fits (hp : p.Fits par) :
    Slot.Fits par { p with zc := (detectCrossing par.cycW p.ws.v p.zc).val } := by
  obtain ⟨_, hcyc, hlive, hsnap, hws, hang⟩ := hp
  obtain ⟨hlast, _, _, hc⟩ := detectCrossing_val par.cycW p.ws.v p.zc
  exact ⟨(congrArg (fitsSigned par.sampleW) hlast).trans hws.1, hc hcyc, hlive, hsnap, hws, hang⟩

theorem accReset_fits (hl : par.legal = true) (hp : p.Fits par) : p.accReset.Fits par := by
  obtain ⟨hlast, hcyc, _, hsnap, hws, hang⟩ := hp
  exact ⟨hlast, hcyc, contribution_fits hl hws, hsnap, hws, hang⟩

theorem accAccumulate_fits (hl : par.legal = true) (hp : p.Fits par) : (p.accAccumulate par).val.Fits par := by
  obtain ⟨hlast, hcyc, _, hsnap, hws, hang⟩ := hp
  exact ⟨hlast, hcyc, accumulate_fits_of_legal hl _ _, hsnap, hws, hang⟩

theorem accLoad_fits (hp : p.Fits par) : p.accLoad.Fits par := by
  obtain ⟨hlast, hcyc, hlive, _, hws, hang⟩ := hp
  exact ⟨hlast, hcyc, hlive, hlive, hws, hang⟩

theorem closeWindow_fits (hl : par.legal = true) (hp : p.Fits par) : p.closeWindow.Fits par := by
  obtain ⟨hlast, _, hlive, _, hws, hang⟩ := hp
  exact ⟨hlast, Nat.two_pow_pos _, contribution_fits hl hws, hlive, hws, hang⟩

/-- PHASE_SAMPLE detects, accumulates and closes the window (R114), and each of these keeps the slot in range. -/
theorem phaseSample_fits (hl : par.legal = true) (hp : p.Fits par) (ui : Nat) : (p.phaseSample par ui).val.Fits par := by
  have hz := detectCrossing_fits hp
  have ha := accAccumulate_fits hl hz
  obtain ⟨_, h⟩ | ⟨_, _, h⟩ | ⟨_, _, h⟩ := phaseSample_cases par ui p _ _ rfl rfl <;> rw [h]
  · exact hz
  · exact ha
  · exact closeWindow_fits hl ha

theorem hardReset_fits (hp : p.Fits par) : p.hardReset.Fits par := by
  obtain ⟨_, _, _, _, _, hv, hi, hc⟩ := hp
  rw [hardReset_eq]
  exact blank_fits par _ _ hv hi hc

theorem measure_fits (hp : p.Fits par) (N : NumStructure) (cfg : Cfg) : (p.measure N cfg).Fits par := by
  obtain ⟨_, _, _, h, _⟩ := measure_frame N cfg p
  rw [h]
  exact hp

/-- The primed last samples are 1, which the narrowest legal sample holds (R6, R150). -/
theorem angleEnter_fits (hl : par.legal = true) (hp : p.Fits par) : p.angleEnter.Fits par := by
  obtain ⟨_, _, hw, _⟩ := (Params.legal_iff par).1 hl
  obtain ⟨hlast, hcyc, hlive, hsnap, hws, _⟩ := hp
  exact ⟨hlast, hcyc, hlive, hsnap, hws, fitsSigned_one hw, fitsSigned_one hw, zero_lt_uint32⟩

theorem angleSample_fits (hp : p.Fits par) (N : NumStructure) (ui : Nat) : (p.angleSample N ui).val.Fits par := by
  obtain ⟨ang, _, _, h, _, hv, hi, hc⟩ := angleSample_frame N ui p
  obtain ⟨hlast, hcyc, hlive, hsnap, hws, _, _, hcnt⟩ := hp
  rw [h]
  exact ⟨hlast, hcyc, hlive, hsnap, hws, (congrArg (fitsSigned par.sampleW) hv).trans hws.1,
    (congrArg (fitsSigned par.sampleW) hi).trans hws.2.1, hc hcnt⟩

theorem takeSample_fits (hl : par.legal = true) (hp : p.Fits par) {t : Triple} (ht : t.Fits par.sampleW)
    (N : NumStructure) (ui : Nat) : (p.takeSample N par ui t).val.Fits par := by
  have hloaded : Slot.Fits par { p with ws := t } := by
    obtain ⟨hlast, hcyc, hlive, hsnap, _, hang⟩ := hp
    exact ⟨hlast, hcyc, hlive, hsnap, ht, hang⟩
  rcases hc : p.sig.calAngle
  · rw [takeSample_normal hc]; exact phaseSample_fits hl hloaded ui
  · rw [takeSample_angle hc]; exact angleSample_fits hloaded N ui

end SlotOperations

/-- An enabled EV_ADC has only triples of the sample width (R75). -/
theorem triple_fits_of_adcEnabled {s : State} (he : s.adcEnabled = true) {k : Nat} {t : Triple}
    (ht : s.smp[k]? = some t) : t.Fits s.par.sampleW := by
  simp only [State.adcEnabled, State.sampleInputOk, Bool.and_eq_true, List.all_eq_true] at he
  obtain ⟨_, _, hall⟩ := he
  simpa [Triple.inRange, and_assoc] using hall t (List.mem_of_getElem? ht)

/-- Whatever an operation makes of a slot, the slot stays in range. -/
theorem slotChange_fits {s : State} {i : Instr} {k : Nat} {p q : Slot} (hl : s.par.legal = true)
    (hp : p.Fits s.par) (h : SlotChange s i k p q) : q.Fits s.par := by
  cases h with
  | kept => exact hp
  | detected => exact detectCrossing_fits hp
  | accReset => exact accReset_fits hl hp
  | accumulated => exact accAccumulate_fits hl hp
  | accLoaded => exact accLoad_fits hp
  | sampled => exact phaseSample_fits hl hp _
  | reset => exact hardReset_fits hp
  | measured => exact measure_fits hp _ _
  | entered => exact angleEnter_fits hl hp
  | angleSampled => exact angleSample_fits hp _ _
  | adc _ he _ t ht => exact takeSample_fits hl hp (triple_fits_of_adcEnabled he ht) _ _
  | coefLoaded => exact hp
  | calibrating => exact hardReset_fits hp
  | secondStage _ _ _ c => exact angleEnter_fits hl (hardReset_fits (p := { p with coef := c }) hp)
  | finished _ _ _ c => exact hardReset_fits (p := { p with coef := c }) hp
  | taken => exact hp

/-- The phase table is no longer than `N_PHASE_MAX` (R26) and every slot of it is in range. -/
def PhasesInRange (par : Params) (ph : List Slot) : Prop := ph.length ≤ par.nPhaseMax ∧ ∀ p ∈ ph, p.Fits par

theorem slotsFrom_inRange {s : State} {i : Instr} {ph : List Slot} (hl : s.par.legal = true)
    (hs : PhasesInRange s.par s.ph) (h : SlotsFrom s i ph) : PhasesInRange s.par ph := by
  obtain ⟨hlen, hfits⟩ := hs
  obtain ⟨hslot, hsize⟩ := h
  refine ⟨?_, fun q hq => ?_⟩
  · obtain hsame | ⟨_, hnil⟩ | ⟨_, hmore, hroom, _⟩ := hsize
    · omega
    · simp [hnil]
    · omega
  · obtain ⟨k, hk⟩ := List.getElem?_of_mem hq
    obtain ⟨p, hp, hc⟩ | ⟨_, _, _, _, hreg⟩ := hslot k q hk
    · exact slotChange_fits hl (hfits p (List.mem_of_getElem? hp)) hc
    · rw [hreg]; exact registration_fits _ _

/-! ## The control records (R37, R41, R42) -/

/-- The integer fields of `cfg`, `cfs` and `seq` are in range. -/
structure ControlInRange (c : Cfg) (f : Cfs) (q : Seq) : Prop where
  updateInterval : c.updateInterval < 2 ^ 16
  ledOnCount : c.ledOnCount ≤ 2 ^ 32 - 2
  rtcCnt : f.rtcCnt < 2 ^ 32
  adcCnt : f.adcCnt < 2 ^ 32
  cfsTarget : f.target < 2 ^ 8
  seqTarget : q.target < 2 ^ 8
  savedUi : q.savedUi < 2 ^ 16
  rtcCycles : q.rtcCycles < 2 ^ 32

theorem natOperand_bounds {lo hi n : Nat} {w : Word} (h : natOperand lo hi w = some n) : lo ≤ n ∧ n ≤ hi := by
  unfold natOperand at h
  split at h
  · cases h; assumption
  · cases h

/-- What INIT admits as `update_interval` and `led_on_count` (R37). -/
theorem readCfg_bounds {N : NumStructure} {a : Vector Word 16} {c : Cfg} (h : readCfg N a = some c) :
    1 ≤ c.updateInterval ∧ c.updateInterval ≤ 65535 ∧ c.ledOnCount ≤ 2 ^ 32 - 2 := by
  unfold readCfg at h
  split at h
  · rename_i hui _ _ _ _ _ _ hled _ _ _
    cases h
    obtain ⟨hlo, hhi⟩ := natOperand_bounds hui
    exact ⟨hlo, hhi, (natOperand_bounds hled).2⟩
  · cases h

/-- Whatever an operation with operands of the format's width (R81) makes of the control records, they stay in range. -/
theorem controlChange_inRange {s : State} {i : Instr} {ct : Ctrl} {c : Cfg} {f : Cfs} {q : Seq}
    (hphase : i.phase < 2 ^ 8) (himm : i.imm < 2 ^ 16) (hs : ControlInRange s.cfg s.cfs s.seq)
    (h : ControlChange s i ct c f q) : ControlInRange c f q := by
  cases h with
  | kept | released | started | stopped | corrected | windowStarts => exact { hs with }
  | configured _ _ _ _ hc =>
    obtain ⟨_, hui, hled⟩ := readCfg_bounds hc
    exact { hs with updateInterval := Nat.lt_succ_of_le hui, ledOnCount := hled }
  | phaseCal k lc hi =>
    subst hi
    exact { hs with updateInterval := himm, seqTarget := hphase, savedUi := hs.updateInterval }
  | globalCal _ _ _ n _ hn =>
    exact
      { hs with
        rtcCnt := hn, adcCnt := zero_lt_uint32, cfsTarget := (by decide : 0 < 2 ^ 8), rtcCycles := hn }
  | coefficients | failed => exact { hs with updateInterval := hs.savedUi }
  | globalDone _ _ _ c hu hled =>
    exact { hs with updateInterval := hu ▸ hs.updateInterval, ledOnCount := hled ▸ hs.ledOnCount }
  | counted _ _ n hn => exact { hs with adcCnt := hn }
  | windowTicks _ _ _ _ n _ hn => exact { hs with rtcCnt := hn }
  | windowEnds => exact { hs with rtcCnt := zero_lt_uint32 }

/-! ## The meters (R39, R40) -/

/-- The lifetime counters and the LED counters are in range. -/
def State.MetersInRange (s : State) : Prop :=
  (∀ c : Category, s.ledger.lifeOf c < 2 ^ s.par.lifeW) ∧ ∀ l : LedId, (s.led.get l).cnt < 2 ^ 32

/-- `t` has the parameters of `s`, and its meters are in range if those of `s` are. -/
structure KeepsMeters (s t : State) : Prop where
  par : t.par = s.par
  inRange : s.MetersInRange → t.MetersInRange

/-- The lifetime counters and the LEDs are left. -/
theorem KeepsMeters.of_eq {s t : State} (hp : t.par = s.par) (hn : t.ledger.life = s.ledger.life)
    (hd : t.led = s.led) : KeepsMeters s t :=
  ⟨hp, fun h => by simpa only [State.MetersInRange, Ledger.lifeOf, hp, hn, hd] using h⟩

theorem KeepsMeters.refl (s : State) : KeepsMeters s s := .of_eq rfl rfl rfl

theorem KeepsMeters.trans {s t u : State} (h : KeepsMeters s t) (h' : KeepsMeters t u) : KeepsMeters s u :=
  ⟨h'.par.trans h.par, fun hs => h'.inRange (h.inRange hs)⟩

theorem keepsMeters_updateSlot (s : State) (k : Nat) (f : Slot → Stored Slot) : KeepsMeters s (s.updateSlot k f) := by
  obtain ⟨_, _, h, _⟩ := updateSlot_frame s k f
  rw [h]
  exact .of_eq rfl rfl rfl

theorem keepsMeters_setLed (s : State) (l : LedId) {x : Led} (hx : x.cnt < 2 ^ 32) : KeepsMeters s (s.setLed l x) := by
  refine ⟨rfl, fun ⟨hlife, hled⟩ => ⟨hlife, fun m => ?_⟩⟩
  rw [State.setLed_led]
  by_cases hm : m = l
  · subst hm; rw [Leds.get_put_same]; exact hx
  · rw [Leds.get_put_other hm]; exact hled m

theorem keepsMeters_setLife (s : State) (c : Category) {n : Nat} (hn : n < 2 ^ s.par.lifeW) :
    KeepsMeters s (s.setLife c n) := by
  refine ⟨rfl, fun ⟨hlife, hled⟩ => ⟨fun d => ?_, hled⟩⟩
  simp only [Ledger.lifeOf, State.setLife_ledger, State.setLife_par, Fin.getElem_fin, Vector.getElem_set]
  split
  · exact hn
  · exact hlife d

theorem keepsMeters_decayLed (s : State) (l : LedId) : KeepsMeters s (s.decayLed l) := by
  have hoff (b : Bool) : KeepsMeters s (((s.setLed l Led.off).emit l.offRequest).noteOvf b) :=
    (keepsMeters_setLed s l (x := Led.off) zero_lt_uint32).trans (.of_eq rfl rfl rfl)
  have hon (c : Stored Nat) (hc : c.val < 2 ^ 32) : KeepsMeters s ((s.setLed l ⟨true, c.val⟩).noteOvf c.ovf) :=
    (keepsMeters_setLed s l hc).trans (.of_eq rfl rfl rfl)
  unfold State.decayLed
  dsimp only
  split_ifs
  · exact hoff _
  · exact hon _ (storeUnsigned_val_lt ..)
  · exact .refl s

theorem keepsMeters_ledDecay (s : State) : KeepsMeters s s.ledDecay :=
  ((keepsMeters_decayLed s .act).trans (keepsMeters_decayLed _ .react)).trans (keepsMeters_decayLed _ .app)

theorem keepsMeters_setAcc (s : State) (c : Category) (x : NumValue) : KeepsMeters s (s.setAcc c x) :=
  .of_eq rfl rfl rfl

theorem keepsMeters_retrigger (s : State) (l : LedId) : KeepsMeters s (s.retrigger l) :=
  (keepsMeters_setLed s l zero_lt_uint32).trans (.of_eq rfl rfl rfl)

/-- ADD's rollover wraps the lifetime counter at its width and starts the LED's counter at 0 (R186, R188). -/
theorem keepsMeters_addEnergy (s : State) (c : Category) (x : NumValue) : KeepsMeters s (s.addEnergy c x) := by
  unfold State.addEnergy
  dsimp only
  split
  · exact ((keepsMeters_setAcc s c _).trans (keepsMeters_setLife _ c (Nat.mod_lt _ (Nat.two_pow_pos _)))).trans
      (keepsMeters_retrigger _ _)
  · exact keepsMeters_setAcc s c _

theorem keepsMeters_energyRoute (s : State) : KeepsMeters s s.energyRoute := by
  obtain ⟨c1, c2, c3, h⟩ := energyRoute_cases s
  rw [h]
  exact ((keepsMeters_addEnergy s c1 _).trans (keepsMeters_addEnergy _ c2 _)).trans (keepsMeters_addEnergy _ c3 _)

theorem readLifetimes_bounds {lifeW : Nat} {a : Vector Word 16} {life : Vector Nat 8}
    (h : readLifetimes lifeW a = some life) (j : Fin 8) : life[j] < 2 ^ lifeW := by
  have hlt {w : Word} {n : Nat} (hn : natOperand 0 (2 ^ lifeW - 1) w = some n) : n < 2 ^ lifeW :=
    Nat.lt_of_le_pred (Nat.two_pow_pos _) (natOperand_bounds hn).2
  unfold readLifetimes at h
  split at h
  · rename_i h0 h1 h2 h3 h4 h5 h6 h7
    cases h
    fin_cases j
    exacts [hlt h0, hlt h1, hlt h2, hlt h3, hlt h4, hlt h5, hlt h6, hlt h7]
  · cases h

theorem keepsMeters_beginPhaseCal (s : State) (k lc : Nat) (vt it : NumValue) :
    KeepsMeters s (s.beginPhaseCal k lc vt it) := by
  unfold State.beginPhaseCal State.hardResetSlot
  dsimp only
  refine KeepsMeters.trans ?_ ((keepsMeters_updateSlot _ k _).trans (.of_eq rfl rfl rfl))
  exact .of_eq rfl rfl rfl

theorem keepsMeters_beginGlobalCal (s : State) (n : Nat) (rp ft : NumValue) :
    KeepsMeters s (s.beginGlobalCal n rp ft) := by
  unfold State.beginGlobalCal State.ensureRtc
  dsimp only
  split <;> exact .of_eq rfl rfl rfl

theorem keepsMeters_finishCoefficients (s : State) (p : Slot) : KeepsMeters s (s.finishCoefficients p) := by
  unfold State.finishCoefficients
  dsimp only
  split <;> exact .of_eq rfl rfl rfl

theorem keepsMeters_finishGlobal (s : State) : KeepsMeters s s.finishGlobal := by
  unfold State.finishGlobal
  dsimp only
  split <;> exact .of_eq rfl rfl rfl

theorem keepsMeters_hostCommand {s after t : State} {checks : List (Bool × ResultCode)} {results : List Word}
    (h : hostCommand checks after results s = .next t) (ha : KeepsMeters s after) : KeepsMeters s t := by
  obtain ⟨_, h'⟩ | ⟨_, _, h'⟩ := hostCommand_cases checks after results s <;> rw [h'] at h <;> cases h
  · exact ha.trans (.of_eq rfl rfl rfl)
  · exact .of_eq rfl rfl rfl

theorem keepsMeters_readSlot {s t : State} {k : Nat} {words : Slot → List Word}
    (h : readSlotCommand k words s = .next t) : KeepsMeters s t := by
  unfold readSlotCommand at h
  split at h <;> exact keepsMeters_hostCommand h (.refl s)

theorem keepsMeters_seqStep {s t : State} (h : execSeqStep s = .next t) : KeepsMeters s t := by
  unfold execSeqStep at h
  split at h
  case h_3 p _ _ =>
    split at h <;> cases h
    · exact keepsMeters_finishCoefficients s p
    · exact .refl s
  case h_5 => split at h <;> cases h <;> exact .of_eq rfl rfl rfl
  case h_6 =>
    split at h <;> cases h
    · exact keepsMeters_finishGlobal s
    · exact .refl s
  all_goals cases h; exact .refl s

theorem keepsMeters_evAdc {s t : State} (h : execEvAdc s = .next t) : KeepsMeters s t := by
  have hphases : KeepsMeters s s.processPhases := .of_eq rfl rfl rfl
  unfold execEvAdc at h
  split_ifs at h <;> cases h
  · exact .of_eq rfl rfl rfl
  · exact hphases
  · exact (hphases.trans (keepsMeters_ledDecay _)).trans (keepsMeters_energyRoute _)
  · exact .refl s

theorem keepsMeters_energySet {s t : State} (h : execEnergySet s = .next t) : KeepsMeters s t := by
  unfold execEnergySet at h
  split at h
  · rename_i acc life _ hlife
    refine keepsMeters_hostCommand h ⟨rfl, fun ⟨_, hled⟩ => ⟨fun c => ?_, hled⟩⟩
    exact readLifetimes_bounds hlife c.index
  · exact keepsMeters_hostCommand h (.refl s)

/-- Every operation keeps the parameters and the range of the meters. -/
theorem exec_keepsMeters {i : Instr} {s t : State} (h : exec i s = .next t) : KeepsMeters s t := by
  cases i <;> simp only [exec] at h
  case zcdDetect | accReset | accAccumulate | accLoad | phaseSample | hardReset | measurePhase | angleEnter |
      angleSample =>
    cases h; exact keepsMeters_updateSlot ..
  case ledDecay => cases h; exact keepsMeters_ledDecay s
  case energyRoute => cases h; exact keepsMeters_energyRoute s
  case seqStep => exact keepsMeters_seqStep h
  case evAdc => exact keepsMeters_evAdc h
  case evTmr => unfold execEvTmr at h; split at h <;> cases h <;> exact .of_eq rfl rfl rfl
  case evRtc => unfold execEvRtc at h; dsimp only at h; split_ifs at h <;> cases h <;> exact .of_eq rfl rfl rfl
  case init => unfold execInit at h; split at h <;> exact keepsMeters_hostCommand h (.of_eq rfl rfl rfl)
  case deinit | start | stop | phaseRegister | energyGet | consGet | seqStatus | statGet =>
    exact keepsMeters_hostCommand h (.of_eq rfl rfl rfl)
  case phaseLoadCal k =>
    unfold execPhaseLoadCal at h
    split at h
    · exact keepsMeters_hostCommand h (.refl s)
    · exact keepsMeters_hostCommand h (keepsMeters_updateSlot ..)
  case phaseCalibrate k lc =>
    unfold execPhaseCalibrate at h
    split at h
    · exact keepsMeters_hostCommand h (.refl s)
    · exact keepsMeters_hostCommand h (keepsMeters_beginPhaseCal ..)
  case globalCalibrate =>
    unfold execGlobalCalibrate at h
    split at h
    · exact keepsMeters_hostCommand h (.refl s)
    · exact keepsMeters_hostCommand h (keepsMeters_beginGlobalCal ..)
  case energySet => exact keepsMeters_energySet h
  case statusGet | vrmsGet | irmsGet | flineGet | pGet | qGet | sGet | measGet | phaseCalGet =>
    exact keepsMeters_readSlot h
  case measReady => unfold execMeasReady at h; split at h <;> exact keepsMeters_hostCommand h (.of_eq rfl rfl rfl)

/-! ## Every field -/

/-- The fields in range, by group. -/
theorem fieldsInRange_iff (s : State) :
    s.FieldsInRange ↔ PhasesInRange s.par s.ph ∧ ControlInRange s.cfg s.cfs s.seq ∧ s.MetersInRange := by
  constructor
  · rintro ⟨hlen, hfits, hui, hled, hlife, hact, hreact, happ, hrtc, hadc, htgt, hst, hsu, hrc⟩
    exact ⟨⟨hlen, hfits⟩, ⟨hui, hled, hrtc, hadc, htgt, hst, hsu, hrc⟩, hlife, fun l => by cases l <;> assumption⟩
  · rintro ⟨⟨hlen, hfits⟩, ⟨hui, hled, hrtc, hadc, htgt, hst, hsu, hrc⟩, hlife, hleds⟩
    exact ⟨hlen, hfits, hui, hled, hlife, hleds .act, hleds .react, hleds .app, hrtc, hadc, htgt, hst, hsu, hrc⟩

/-- An operation with operands of the format's width keeps every field in range. -/
theorem exec_fieldsInRange {i : Instr} {s t : State} (hl : s.par.legal = true)
    (hfit : i.phase < 2 ^ 8 ∧ i.imm < 2 ^ 16) (hs : s.FieldsInRange) (h : exec i s = .next t) : t.FieldsInRange := by
  obtain ⟨hphases, hcontrol, hmeters⟩ := (fieldsInRange_iff s).1 hs
  have hkept := exec_keepsMeters h
  rw [fieldsInRange_iff, hkept.par]
  exact ⟨slotsFrom_inRange hl hphases (exec_slots h), controlChange_inRange hfit.1 hfit.2 hcontrol (exec_control h),
    hkept.inRange hmeters⟩

/-- Power-on reset leaves every field in range, whatever the parameters and whatever is to come. -/
theorem reset_fieldsInRange (par : Params) (rest : List Stimulus) :
    State.FieldsInRange { State.reset with par := par, inbox := rest } := by
  have hcontrol : ControlInRange State.reset.cfg State.reset.cfs State.reset.seq := by constructor <;> decide
  have hlife (c : Category) : State.reset.ledger.lifeOf c = 0 := by cases c <;> rfl
  have hled (l : LedId) : (State.reset.led.get l).cnt < 2 ^ 32 := by cases l <;> decide
  rw [fieldsInRange_iff]
  exact ⟨⟨Nat.zero_le _, List.forall_mem_nil _⟩, hcontrol, fun c => (hlife c).trans_lt (Nat.two_pow_pos _), hled⟩

/-- Settles O54: a step takes an operation, which keeps each group of fields in range, or leaves all these fields, or
is power-on reset. -/
theorem stepKeepsFieldsInRange : Obligations.StepKeepsFieldsInRange := by
  intro s t hl hs h
  obtain ⟨_, rfl⟩ | ⟨x, rest, i, smp, hd, he⟩ | ⟨x, rest, bus, a, rc, d, _, rfl⟩ | ⟨rest, _, rfl⟩ := step_cases h
  · exact hs
  · exact exec_fieldsInRange (s := { s with inbox := rest, smp := smp }) hl hd.fits hs he
  · exact hs
  · exact reset_fieldsInRange s.par rest

/-- Before INIT nothing runs, nothing is registered and no sequence is under way. -/
theorem reset_controlCoherent : State.reset.ControlCoherent :=
  ⟨fun _ => ⟨rfl, rfl, rfl, rfl, rfl⟩, nofun, fun _ => ⟨rfl, rfl, rfl⟩, nofun, nofun, nofun⟩

/-- Settles O60: no slot is registered and nothing is to come, so the invariants over slots and stimuli hold of
nothing. -/
theorem resetSatisfiesTheInvariants : Obligations.ResetSatisfiesTheInvariants :=
  ⟨reset_fieldsInRange Params.default [], reset_controlCoherent, List.forall_mem_nil _,
    fun _ => List.forall_mem_nil _, List.forall_mem_nil _, List.forall_mem_nil _, fun _ _ => nofun, by decide⟩

end Sys2Proof.Machine
end

section
/-! The stores of R8: what a field of a stated width receives. -/

namespace Sys2Proof.Machine

theorem storeUnsigned_of_range {w : Nat} {v : Int} (h : 0 ≤ v ∧ v < 2 ^ w) : storeUnsigned w v = ⟨v.toNat, false⟩ :=
  if_pos h

/-- A value outside the unsigned range is stored as its residue. -/
theorem storeUnsigned_of_outside {w : Nat} {v : Int} (h : v < 0 ∨ 2 ^ w ≤ v) :
    storeUnsigned w v = ⟨(v % 2 ^ w).toNat, true⟩ :=
  if_neg (by omega)

/-- A value outside the signed range is stored as the residue shifted into the range. -/
theorem storeSigned_of_outside {w : Nat} {v : Int} (h : v < -(2 ^ w) ∨ 2 ^ w ≤ v) :
    storeSigned (w + 1) v = ⟨(v + 2 ^ w) % 2 ^ (w + 1) - 2 ^ w, true⟩ := by
  simp only [storeSigned, Nat.add_sub_cancel]
  exact if_neg (by omega)

/-- The residue shifted into the signed range is still congruent to the value. -/
theorem shifted_residue_emod (v a m : Int) : ((v + a) % m - a) % m = v % m := by
  have h : (v + a) % m - a ≡ v + a - a [ZMOD m] := (Int.mod_modEq (v + a) m).sub_right a
  rwa [add_sub_cancel_right] at h

/-- Settles O10: the range of a width decides which of the two values `store_N` delivers. -/
theorem storeKeepsOrWraps : Obligations.StoreKeepsOrWraps := by
  refine ⟨fun w v => storeUnsigned_of_range, fun w v h => ⟨?_, storeUnsigned_val_lt w v, ?_⟩,
    fun w v h => storeSigned_of_fits ((fitsSigned_iff (w + 1) v).2 h), fun w v h => ?_⟩
  · rw [storeUnsigned_of_outside h]
  · have hpos : (0 : Int) < 2 ^ w := by positivity
    rw [storeUnsigned_of_outside h, Int.toNat_of_nonneg (Int.emod_nonneg v hpos.ne'), Int.emod_emod]
  · obtain ⟨hl, hu⟩ := (fitsSigned_iff (w + 1) _).1 (storeSigned_val_fits (Nat.le_add_left 1 w) v)
    refine ⟨?_, hl, hu, ?_⟩ <;> rw [storeSigned_of_outside h]
    exact shifted_residue_emod v _ _

end Sys2Proof.Machine
end

section
/-! The delivery of operations: which operation the next stimulus brings (R5, R65, R67, R83). -/

namespace Sys2Proof

theorem phaseForm_eq_ok {w : Word} {f : Nat → Instr} {i : Instr} (h : phaseForm w f = .ok i) : i = f (phField w) := by
  unfold phaseForm at h
  split at h <;> cases h
  rfl

theorem bareForm_eq_ok {w : Word} {i j : Instr} (h : bareForm w j = .ok i) : i = j := by
  unfold bareForm at h
  split at h <;> cases h
  rfl

/-- A word decodes to an operation of its own opcode: each row of the decoder has one of two forms, PHASE_CALIBRATE
apart, which uses both fields (R84, R85). -/
theorem opcode_of_decode {w : Word} {i : Instr} (h : decode w = .ok i) : i.opcode = opField w := by
  unfold decode at h
  split at h
  all_goals
    first
    | (obtain rfl := phaseForm_eq_ok h; exact Eq.symm ‹opField w = _›)
    | (obtain rfl := bareForm_eq_ok h; exact Eq.symm ‹opField w = _›)
    | (cases h; try exact Eq.symm ‹opField w = _›)

/-- The opcodes of the host class are those R85 step 1 admits. -/
theorem isHostOpcode_opcode (i : Instr) : isHostOpcode i.opcode = true ↔ i.opClass = .host := by
  cases i <;> simp [isHostOpcode, Instr.opcode, Instr.opClass]

end Sys2Proof

namespace Sys2Proof.Machine

theorem step_of_inbox {s : State} {x : Stimulus} {rest : List Stimulus} (h : s.inbox = x :: rest) :
    step s = takeStimulus x { s with inbox := rest } := by
  simp only [step, takeNext, h]

theorem runWord_of_decode {w : Word} {i : Instr} (h : decode w = .ok i) (s : State) : runWord w s = exec i s := by
  simp only [runWord, h]

theorem issueCommand_of_decode {w : Word} {i : Instr} (h : decode w = .ok i) (hc : i.opClass = .host) (s : State) :
    issueCommand w s = exec i s := by
  have hop : isHostOpcode (opField w) = true := by rw [← opcode_of_decode h, isHostOpcode_opcode, hc]
  rw [issueCommand, if_pos hop, runWord_of_decode h]

/-- A 32-bit write at `HOST_BASE` is a write of `OPW` (R61, R65). -/
theorem hostWrite_opw (w : Word) (s : State) : hostWrite s.par.hostBase 32 w s = issueCommand w s := by
  have hoff : windowOffset s.par s.par.hostBase = some 0 := by simp [windowOffset]
  have hadmitted : admitted 0 32 = true := by decide
  simp only [hostWrite, hoff, if_pos hadmitted]
  rfl

/-- Settles O4: a step takes the next stimulus, and each route of delivery ends in `exec`. -/
theorem stepRunsTheDeliveredOperation : Obligations.StepRunsTheDeliveredOperation := by
  refine fun s rest => ⟨fun w i h hd => ?_, fun w i h hd hc => ?_, fun _ => step_of_inbox, step_of_inbox, step_of_inbox,
    step_of_inbox⟩
  · rw [step_of_inbox h]
    exact runWord_of_decode hd _
  · rw [step_of_inbox h]
    exact (hostWrite_opw w { s with inbox := rest }).trans (issueCommand_of_decode hd hc _)

end Sys2Proof.Machine
end

section
/-! What an operation keeps (R22, R23, R25, R39, R43): one relation between the state before and after, which holds of
every shared update, composes, and so holds of every operation. -/

namespace Sys2Proof.Machine

/-! ## Micro-operations on a slot (R26) -/

/-- A micro-operation that names a slot is an update of that slot. -/
theorem exec_slotMicro {i : Instr} (hm : i.opClass = .micro) (hl : i ≠ .ledDecay) (hr : i ≠ .energyRoute)
    (hq : i ≠ .seqStep) (s : State) : ∃ f, exec i s = .next (s.updateSlot i.phase f) := by
  cases i
  case zcdDetect | accReset | accAccumulate | accLoad | phaseSample | hardReset | measurePhase | angleEnter |
      angleSample => exact ⟨_, rfl⟩
  case ledDecay => exact absurd rfl hl
  case energyRoute => exact absurd rfl hr
  case seqStep => exact absurd rfl hq
  all_goals cases hm

/-- Settles O53: such an operation is an update of its slot, and `updateSlot_frame` says what that keeps. -/
theorem microOperationsTouchOnlyTheirSlot : Obligations.MicroOperationsTouchOnlyTheirSlot := by
  intro i s t hm hl hr hq h
  obtain ⟨f, hf⟩ := exec_slotMicro hm hl hr hq s
  obtain ⟨ph, ovf, hu, hlen, hslots⟩ := updateSlot_frame s i.phase f
  rw [hf, hu] at h
  cases h
  exact ⟨rfl, hlen, hslots⟩

/-! ## SEQ_STEP (R170) -/

theorem execSeqStep_idle {s : State} (h : s.seq.state = .idle) : execSeqStep s = .next s := by
  simp only [execSeqStep, h]

theorem execSeqStep_first {s : State} {p : Slot} (h : s.seq.state = .pcalW1) (hp : s.ph[s.seq.target]? = some p) :
    execSeqStep s = if p.sig.accReady then .next (s.finishCoefficients p) else .next s := by
  simp only [execSeqStep, h, hp]

theorem execSeqStep_second {s : State} {p : Slot} (h : s.seq.state = .pcalW2) (hp : s.ph[s.seq.target]? = some p) :
    execSeqStep s = if p.sig.calAngle then .next s else .next (s.finishAngle p) := by
  simp only [execSeqStep, h, hp]

theorem execSeqStep_global {s : State} (h : s.seq.state = .gcalW) :
    execSeqStep s = if s.cfs.finished then .next s.finishGlobal else .next s := by
  simp only [execSeqStep, h]

theorem execSeqStep_unregistered {s : State} (h : s.seq.state = .pcalW1 ∨ s.seq.state = .pcalW2)
    (hp : s.ph[s.seq.target]? = none) : execSeqStep s = .next s := by
  rcases h with h | h <;> simp only [execSeqStep, h, hp]

/-- Everything SEQ_STEP can do: nothing, or the end of the stage whose flag is up. -/
theorem seqStep_cases {s t : State} (h : execSeqStep s = .next t) :
    t = s ∨
    (∃ p, s.seq.state = .pcalW1 ∧ s.ph[s.seq.target]? = some p ∧ p.sig.accReady = true ∧ t = s.finishCoefficients p) ∨
    (∃ p, s.seq.state = .pcalW2 ∧ s.ph[s.seq.target]? = some p ∧ p.sig.calAngle = false ∧ t = s.finishAngle p) ∨
    (s.seq.state = .gcalW ∧ s.cfs.finished = true ∧ t = s.finishGlobal) := by
  rcases hs : s.seq.state
  · rw [execSeqStep_idle hs] at h; cases h; exact .inl rfl
  · rcases hp : s.ph[s.seq.target]? with _ | p
    · rw [execSeqStep_unregistered (.inl hs) hp] at h; cases h; exact .inl rfl
    · rw [execSeqStep_first hs hp] at h
      split at h <;> cases h
      · exact .inr (.inl ⟨p, rfl, rfl, ‹_›, rfl⟩)
      · exact .inl rfl
  · rcases hp : s.ph[s.seq.target]? with _ | p
    · rw [execSeqStep_unregistered (.inr hs) hp] at h; cases h; exact .inl rfl
    · rw [execSeqStep_second hs hp] at h
      split at h <;> cases h
      · exact .inl rfl
      · exact .inr (.inr (.inl ⟨p, rfl, rfl, Bool.eq_false_of_not_eq_true ‹_›, rfl⟩))
  · rw [execSeqStep_global hs] at h
    split at h <;> cases h
    · exact .inr (.inr (.inr ⟨rfl, ‹_›, rfl⟩))
    · exact .inl rfl

/-! ## What every operation keeps -/

/-- What operation `i` keeps from `s` to `t`: the operand registers, the parameters and the inputs; `R` and `RC` unless
it is a host command; the fault bits, but that `OVF` may be set; the requests so far; and the ledger's accumulators and
lifetime counters unless it is one of their writers. A field that is left is kept by definition. -/
structure Effect (i : Instr) (s t : State) : Prop where
  A : t.A = s.A := by rfl
  par : t.par = s.par := by rfl
  inbox : t.inbox = s.inbox := by rfl
  smp : t.smp = s.smp := by rfl
  rdata : t.rdata = s.rdata := by rfl
  ovf : s.fault.ovf = true → t.fault.ovf = true := by exact id
  bus : t.fault.bus = s.fault.bus := by rfl
  trace : s.trace <+: t.trace := by exact ⟨[], List.append_nil _⟩
  results : i.opClass ≠ .host → t.R = s.R ∧ t.rc = s.rc := by exact fun _ => ⟨rfl, rfl⟩
  energy : i ≠ .energyRoute → i ≠ .evAdc → i ≠ .energySet →
    t.ledger.acc = s.ledger.acc ∧ t.ledger.life = s.ledger.life := by exact fun _ _ _ => ⟨rfl, rfl⟩

section Updates

variable {i : Instr} {s t u : State}

theorem Effect.refl (i : Instr) (s : State) : Effect i s s := {}

theorem Effect.trans (h : Effect i s t) (h' : Effect i t u) : Effect i s u where
  A := h'.A.trans h.A
  par := h'.par.trans h.par
  inbox := h'.inbox.trans h.inbox
  smp := h'.smp.trans h.smp
  rdata := h'.rdata.trans h.rdata
  ovf := h'.ovf ∘ h.ovf
  bus := h'.bus.trans h.bus
  trace := h.trace.trans h'.trace
  results hc := ⟨(h'.results hc).1.trans (h.results hc).1, (h'.results hc).2.trans (h.results hc).2⟩
  energy hr ha hs :=
    ⟨(h'.energy hr ha hs).1.trans (h.energy hr ha hs).1, (h'.energy hr ha hs).2.trans (h.energy hr ha hs).2⟩

theorem effect_noteOvf (i : Instr) (b : Bool) (s : State) : Effect i s (s.noteOvf b) :=
  { ovf := fun h => by simp [h] }

theorem effect_startAdc (i : Instr) (s : State) : Effect i s s.startAdc := { trace := ⟨_, rfl⟩ }

theorem effect_stopAdc (i : Instr) (s : State) : Effect i s s.stopAdc := { trace := ⟨_, rfl⟩ }

theorem effect_startTmr (i : Instr) (s : State) : Effect i s s.startTmr := { trace := ⟨_, rfl⟩ }

theorem effect_stopTmr (i : Instr) (s : State) : Effect i s s.stopTmr := { trace := ⟨_, rfl⟩ }

theorem effect_startRtc (i : Instr) (s : State) : Effect i s s.startRtc := { trace := ⟨_, rfl⟩ }

theorem effect_stopRtc (i : Instr) (s : State) : Effect i s s.stopRtc := { trace := ⟨_, rfl⟩ }

theorem effect_startAll (i : Instr) (s : State) : Effect i s s.startAll :=
  ((effect_startAdc i s).trans (effect_startTmr ..)).trans (effect_startRtc ..)

theorem effect_stopAll (i : Instr) (s : State) : Effect i s s.stopAll :=
  ((effect_stopAdc i s).trans (effect_stopTmr ..)).trans (effect_stopRtc ..)

theorem effect_updateSlot (i : Instr) (s : State) (k : Nat) (f : Slot → Stored Slot) :
    Effect i s (s.updateSlot k f) := by
  obtain ⟨_, ovf, h, _⟩ := updateSlot_frame s k f
  rw [h]
  exact { ovf := fun h => by simp [h] }

theorem effect_ledDecay (i : Instr) (s : State) : Effect i s s.ledDecay := by
  obtain ⟨_, _, _, h⟩ := ledDecay_frame s
  rw [h]
  exact { ovf := fun h => by simp [h], trace := ⟨_, rfl⟩ }

theorem effect_energyRoute (hi : i = .energyRoute ∨ i = .evAdc) (s : State) : Effect i s s.energyRoute := by
  obtain ⟨_, _, _, _, h⟩ := energyRoute_frame s
  rw [h]
  exact { trace := ⟨_, rfl⟩, energy := fun hr ha _ => (hi.elim hr ha).elim }

theorem effect_processPhases (i : Instr) (s : State) : Effect i s s.processPhases :=
  { ovf := fun h => by simp [State.processPhases, h] }

/-- The part of EV_ADC after the phase processing (R190). -/
theorem effect_energyTail (s : State) : Effect .evAdc s s.ledDecay.energyRoute :=
  (effect_ledDecay _ s).trans (effect_energyRoute (.inr rfl) _)

/-! ## Host commands -/

theorem effect_configure (i : Instr) (c : Cfg) (s : State) : Effect i s (s.configure c) :=
  { trace := by simp [State.configure] }

theorem effect_release (i : Instr) (s : State) : Effect i s s.release := (effect_stopAll i s).trans {}

theorem effect_beginPhaseCal (i : Instr) (k lc : Nat) (vt it : NumValue) (s : State) :
    Effect i s (s.beginPhaseCal k lc vt it) := by
  have hstopped := (effect_stopAdc i s).trans (effect_stopTmr ..)
  exact ((hstopped.trans {}).trans (effect_updateSlot i _ k _)).trans (effect_startAdc ..)

theorem effect_ensureRtc (i : Instr) (s : State) : Effect i s s.ensureRtc := by
  unfold State.ensureRtc
  split
  · exact .refl i s
  · exact effect_startRtc i s

theorem effect_beginGlobalCal (i : Instr) (n : Nat) (rp ft : NumValue) (s : State) :
    Effect i s (s.beginGlobalCal n rp ft) :=
  (((effect_stopAdc i s).trans (effect_stopTmr ..)).trans (effect_ensureRtc ..)).trans {}

theorem effect_hostCommand {checks : List (Bool × ResultCode)} {results : List Word} {after : State}
    (hi : i.opClass = .host) (h : hostCommand checks after results s = .next t) (ha : Effect i s after) :
    Effect i s t := by
  obtain ⟨_, h'⟩ | ⟨_, _, h'⟩ := hostCommand_cases checks after results s <;> rw [h'] at h <;> cases h
  · exact ha.trans { results := fun hc => absurd hi hc }
  · exact { results := fun hc => absurd hi hc }

theorem effect_readSlot {k : Nat} {words : Slot → List Word} (hi : i.opClass = .host)
    (h : readSlotCommand k words s = .next t) : Effect i s t := by
  unfold readSlotCommand at h
  split at h <;> exact effect_hostCommand hi h (.refl i s)

/-! ## SEQ_STEP and the events -/

theorem effect_endSequence (i : Instr) (r : ResultCode) (s : State) : Effect i s (s.endSequence r) :=
  ((effect_startAdc i s).trans (effect_startTmr ..)).trans {}

theorem effect_finishCoefficients (i : Instr) (p : Slot) (s : State) : Effect i s (s.finishCoefficients p) := by
  unfold State.finishCoefficients
  dsimp only
  split
  · exact (((effect_stopAdc i s).trans {}).trans (effect_startAdc ..)).trans {}
  · exact ((effect_stopAdc i s).trans {}).trans (effect_endSequence ..)

theorem effect_finishAngle (i : Instr) (p : Slot) (s : State) : Effect i s (s.finishAngle p) :=
  ((effect_stopAdc i s).trans {}).trans (effect_endSequence ..)

theorem effect_finishGlobal (i : Instr) (s : State) : Effect i s s.finishGlobal := by
  unfold State.finishGlobal
  dsimp only
  split <;> exact Effect.trans {} (effect_endSequence ..)

theorem effect_seqStep (h : execSeqStep s = .next t) : Effect i s t := by
  obtain rfl | ⟨_, _, _, _, rfl⟩ | ⟨_, _, _, _, rfl⟩ | ⟨_, _, rfl⟩ := seqStep_cases h
  · exact .refl ..
  · exact effect_finishCoefficients ..
  · exact effect_finishAngle ..
  · exact effect_finishGlobal ..

theorem effect_evAdc (h : execEvAdc s = .next t) : Effect .evAdc s t := by
  unfold execEvAdc at h
  split_ifs at h <;> cases h
  · exact Effect.trans {} (effect_noteOvf ..)
  · exact effect_processPhases ..
  · exact (effect_processPhases _ s).trans (effect_energyTail _)
  · exact .refl ..

theorem effect_evRtc (h : execEvRtc s = .next t) : Effect i s t := by
  unfold execEvRtc at h
  dsimp only at h
  split_ifs at h <;> cases h
  · exact Effect.trans {} (effect_startAdc ..)
  · exact (Effect.trans {} (effect_stopAdc ..)).trans (effect_noteOvf ..)
  · exact Effect.trans {} (effect_noteOvf ..)
  · exact .refl ..
  · exact .refl ..

end Updates

theorem exec_effect {i : Instr} {s t : State} (h : exec i s = .next t) : Effect i s t := by
  cases i <;> simp only [exec] at h
  case zcdDetect | accReset | accAccumulate | accLoad | phaseSample | hardReset | measurePhase | angleEnter |
      angleSample =>
    cases h; exact effect_updateSlot ..
  case ledDecay => cases h; exact effect_ledDecay _ s
  case energyRoute => cases h; exact effect_energyRoute (.inl rfl) s
  case seqStep => exact effect_seqStep h
  case evAdc => exact effect_evAdc h
  case evTmr => unfold execEvTmr at h; split at h <;> cases h <;> exact {}
  case evRtc => exact effect_evRtc h
  case init =>
    unfold execInit at h
    split at h
    · exact effect_hostCommand rfl h (.refl ..)
    · exact effect_hostCommand rfl h (effect_configure ..)
  case deinit => exact effect_hostCommand rfl h (effect_release ..)
  case start => exact effect_hostCommand rfl h (effect_startAll ..)
  case stop => exact effect_hostCommand rfl h (effect_stopAll ..)
  case phaseRegister | energyGet | consGet | seqStatus | statGet => exact effect_hostCommand rfl h {}
  case phaseLoadCal k =>
    unfold execPhaseLoadCal at h
    split at h
    · exact effect_hostCommand rfl h (.refl ..)
    · exact effect_hostCommand rfl h (effect_updateSlot ..)
  case phaseCalibrate k lc =>
    unfold execPhaseCalibrate at h
    split at h
    · exact effect_hostCommand rfl h (.refl ..)
    · exact effect_hostCommand rfl h (effect_beginPhaseCal ..)
  case globalCalibrate =>
    unfold execGlobalCalibrate at h
    split at h
    · exact effect_hostCommand rfl h (.refl ..)
    · exact effect_hostCommand rfl h (effect_beginGlobalCal ..)
  case energySet =>
    unfold execEnergySet at h
    split at h <;> exact effect_hostCommand rfl h { energy := fun _ _ hs => absurd rfl hs }
  case statusGet | vrmsGet | irmsGet | flineGet | pGet | qGet | sGet | measGet | phaseCalGet =>
    exact effect_readSlot rfl h
  case measReady => unfold execMeasReady at h; split at h <;> exact effect_hostCommand rfl h {}

/-- Settles O51: these are fields of `Effect`, which every operation has. -/
theorem operationsKeepOperandsFaultsAndTrace : Obligations.OperationsKeepOperandsFaultsAndTrace := by
  intro i s t h
  obtain ⟨hA, hpar, hinbox, hsmp, hrdata, hovf, hbus, ⟨requests, htrace⟩, _, _⟩ := exec_effect h
  exact ⟨hA, hpar, hinbox, hsmp, hrdata, hovf, hbus, requests, htrace.symm⟩

/-- Only INIT, PHASE_CALIBRATE and SEQ_STEP write `cfg` (R37, R162, R171, R173). -/
theorem controlChange_cfg {s : State} {i : Instr} {ct : Ctrl} {c : Cfg} {f : Cfs} {q : Seq}
    (h : ControlChange s i ct c f q) (hi : i ≠ .init) (hs : i ≠ .seqStep) (hp : ∀ k lc, i ≠ .phaseCalibrate k lc) :
    c = s.cfg := by
  cases h with
  | configured h => exact absurd h hi
  | phaseCal k lc h => exact absurd h (hp k lc)
  | coefficients h | failed h | globalDone h => exact absurd h hs
  | kept | released | started | stopped | globalCal | corrected | counted | windowStarts | windowTicks | windowEnds =>
    rfl

/-- INIT writes nothing while the ADC or the timer runs (R201). -/
theorem controlChange_init_of_sampling {s : State} {ct : Ctrl} {c : Cfg} {f : Cfs} {q : Seq}
    (h : ControlChange s .init ct c f q) (hrun : s.ctrl.adcEn = true ∨ s.ctrl.tmrEn = true) : c = s.cfg := by
  cases h with
  | kept => rfl
  | configured _ _ hq => simp [hq.1, hq.2] at hrun
  | phaseCal _ _ h | coefficients h | failed h | corrected h | globalDone h => cases h
  | released | started | stopped | globalCal | counted | windowStarts | windowTicks | windowEnds => rfl

/-- Settles O52: `Effect` for the registers and the ledger, `ControlChange` for `cfg`, `SlotsFrom` for the table. -/
theorem eachRecordHasItsWriters : Obligations.EachRecordHasItsWriters := by
  intro i s t h
  have heffect := exec_effect h
  have hcontrol := exec_control h
  refine ⟨heffect.results, heffect.energy, controlChange_cfg hcontrol, ?_, fun hr hd => ?_⟩
  · rintro rfl
    exact controlChange_init_of_sampling hcontrol
  · obtain ⟨_, hlen | ⟨hi, _⟩ | ⟨hi, _⟩⟩ := exec_slots h
    · exact hlen
    · exact absurd hi hd
    · exact absurd hi hr

end Sys2Proof.Machine
end

section
/-! Invariants of every step: the operations, the host port and power-on reset are the three sources of change, and each
invariant is proved for them once. -/

namespace Sys2Proof.Machine

/-! ## Steps -/

/-- When only the agents act, an operation a step runs is an agent's (R5, R83). -/
theorem Delivered.isAgentStep {s : State} {x : Stimulus} {rest : List Stimulus} {i : Instr} {smp : List Triple}
    (hd : Delivered s x rest i smp) (ha : s.AgentsOnly) : Instr.isAgentStep i = true := by
  obtain ⟨w, rfl⟩ | h := hd.source
  · have hx := ha (.op w) (by simp [hd.inbox])
    simpa only [Stimulus.fromAgents, hd.word w rfl] using hx
  · exact h

/-- A step keeps what operations keep, if it does not depend on what a host access or a delivery writes and holds after
power-on reset. -/
theorem step_invariant {P : State → Prop} {s t : State}
    (hport : ∀ (s : State) (bus : Bool) (a : Vector Word 16) (rc : ResultCode) (smp : List Triple) (d : Word)
      (rest : List Stimulus), P s →
        P { s with fault := { s.fault with bus := bus }, A := a, rc := rc, smp := smp, rdata := d, inbox := rest })
    (hreset : ∀ (par : Params) (rest : List Stimulus), P { State.reset with par := par, inbox := rest })
    (hexec : ∀ (i : Instr) (u : State), (s.AgentsOnly → Instr.isAgentStep i = true) → P u → exec i u = .next t → P t)
    (hs : P s) (h : step s = .next t) : P t := by
  obtain ⟨_, rfl⟩ | ⟨x, rest, i, smp, hd, he⟩ | ⟨_, rest, bus, a, rc, d, _, rfl⟩ | ⟨rest, _, rfl⟩ := step_cases h
  · exact hs
  · exact hexec i _ hd.isAgentStep (hport s s.fault.bus s.A s.rc smp s.rdata rest hs) he
  · exact hport s bus a rc s.smp d rest hs
  · exact hreset s.par rest

/-- A step consumes what is to come and adds nothing. -/
theorem step_keepsAgentsOnly {s t : State} (ha : s.AgentsOnly) (h : step s = .next t) : t.AgentsOnly := by
  have hrest {x : Stimulus} {rest : List Stimulus} (hx : s.inbox = x :: rest) : ∀ y ∈ rest, y.fromAgents = true :=
    fun y hy => ha y (hx ▸ List.mem_cons_of_mem x hy)
  obtain ⟨_, rfl⟩ | ⟨_, _, _, _, hd, he⟩ | ⟨_, _, _, _, _, _, hx, rfl⟩ | ⟨_, hx, rfl⟩ := step_cases h
  · exact ha
  · rw [State.AgentsOnly, (exec_effect he).inbox]
    exact hrest hd.inbox
  · exact hrest hx
  · exact hrest hx

/-! ## The control state (R24, R41, R160 to R163, R170) -/

/-- `State.ControlCoherent` on the records it speaks of; `n` is the number of slots. -/
structure Coherent (ct : Ctrl) (c : Cfg) (f : Cfs) (q : Seq) (n : Nat) : Prop where
  beforeInit : ct.init = false → ct.adcEn = false ∧ ct.tmrEn = false ∧ ct.rtcEn = false ∧ q.state = .idle ∧ n = 0
  window : q.state = .gcalW →
    f.OneHot ∧ ct.rtcEn = true ∧ ct.tmrEn = false ∧ ct.adcEn = f.running ∧ (f.finished = false → 1 ≤ f.rtcCnt)
  noWindow : q.state ≠ .gcalW → f.start = false ∧ f.running = false ∧ f.finished = false
  phaseCal : q.state = .pcalW1 ∨ q.state = .pcalW2 → q.target < n ∧ ct.adcEn = true ∧ ct.tmrEn = false
  interval : ct.init = true → 1 ≤ c.updateInterval
  savedInterval : q.state = .pcalW1 → 1 ≤ q.savedUi

theorem controlCoherent_iff (s : State) : s.ControlCoherent ↔ Coherent s.ctrl s.cfg s.cfs s.seq s.ph.length := by
  constructor
  · rintro ⟨hinit, hwin, hno, hcal, hui, hsaved⟩
    exact ⟨fun h => by simpa using hinit h, hwin, hno, hcal, hui, hsaved⟩
  · rintro ⟨hinit, hwin, hno, hcal, hui, hsaved⟩
    exact ⟨fun h => by simpa using hinit h, hwin, hno, hcal, hui, hsaved⟩

section Coherence

variable {s : State} {i : Instr} {ct : Ctrl} {c : Cfg} {f : Cfs} {q : Seq} {m n : Nat}

theorem Coherent.init_of_busy (h : Coherent ct c f q n) (hq : q.state ≠ .idle) : ct.init = true := by
  by_contra hn
  obtain ⟨_, _, _, hidle, _⟩ := h.beforeInit (Bool.eq_false_of_not_eq_true hn)
  exact hq hidle

/-- A flag of `cfs` that is set tells of a global calibration (R41). -/
theorem Coherent.state_of_flag (h : Coherent ct c f q n)
    (hf : f.start = true ∨ f.running = true ∨ f.finished = true) : q.state = .gcalW := by
  by_contra hn
  obtain ⟨hs, hr, hd⟩ := h.noWindow hn
  simp [hs, hr, hd] at hf

/-- After INIT, with no sequence and no window, only `update_interval` matters. -/
theorem Coherent.of_idle (hinit : ct.init = true) (hq : q.state = .idle)
    (hf : f.start = false ∧ f.running = false ∧ f.finished = false) (hui : 1 ≤ c.updateInterval) :
    Coherent ct c f q n where
  beforeInit h := by simp [hinit] at h
  window h := by simp [hq] at h
  noWindow _ := hf
  phaseCal h := by simp [hq] at h
  interval _ := hui
  savedInterval h := by simp [hq] at h

/-- More slots do no harm once INIT has been. -/
theorem Coherent.more_slots (h : Coherent ct c f q n) (hnm : n ≤ m) (hinit : ct.init = false → m = n) :
    Coherent ct c f q m :=
  { h with
    beforeInit := fun hi => hinit hi ▸ h.beforeInit hi
    phaseCal := fun hq => ⟨(h.phaseCal hq).1.trans_le hnm, (h.phaseCal hq).2⟩ }

/-- While a global calibration runs, only the window and `update_interval` matter. -/
theorem Coherent.of_window (hinit : ct.init = true) (hq : q.state = .gcalW) (hf : f.OneHot) (hrtc : ct.rtcEn = true)
    (htmr : ct.tmrEn = false) (hadc : ct.adcEn = f.running) (hcnt : f.finished = false → 1 ≤ f.rtcCnt)
    (hui : 1 ≤ c.updateInterval) : Coherent ct c f q n where
  beforeInit h := by simp [hinit] at h
  window _ := ⟨hf, hrtc, htmr, hadc, hcnt⟩
  noWindow h := absurd hq h
  phaseCal h := by simp [hq] at h
  interval _ := hui
  savedInterval h := by simp [hq] at h

theorem idle_of_not_busy (hb : s.busy = false) : s.seq.state = .idle := by simpa [State.busy] using hb

/-- An operation that keeps the slots of `s`, or adds one, and is not DEINIT keeps the control state coherent. -/
theorem controlChange_coherent (hi : i ≠ .deinit) (hs : Coherent s.ctrl s.cfg s.cfs s.seq n) (hn : s.ph.length ≤ n)
    (h : ControlChange s i ct c f q) : Coherent ct c f q n := by
  have hidle (hb : s.busy = false) : s.seq.state = .idle ∧ s.cfs.start = false ∧ s.cfs.running = false ∧
      s.cfs.finished = false :=
    have hq := idle_of_not_busy hb
    ⟨hq, hs.noWindow (by simp [hq])⟩
  cases h with
  | kept => exact hs
  | configured _ hb _ _ hc =>
    obtain ⟨hq, hf⟩ := hidle hb
    exact .of_idle rfl hq hf (readCfg_bounds hc).1
  | released h => exact absurd h hi
  | started _ hb hinit =>
    obtain ⟨hq, hf⟩ := hidle hb
    exact .of_idle hinit hq hf (hs.interval hinit)
  | stopped _ hb =>
    have hq := (hidle hb).1
    exact { hs with
      beforeInit := fun h => ⟨rfl, rfl, rfl, hq, (hs.beforeInit h).2.2.2.2⟩
      window := fun h => by simp [hq] at h
      phaseCal := fun h => by simp [hq] at h }
  | phaseCal k lc _ hb hinit hk hlc =>
    exact {
      beforeInit := fun h => by simp [hinit] at h
      window := nofun
      noWindow := fun _ => (hidle hb).2
      phaseCal := fun _ => ⟨hk.trans_le hn, rfl, rfl⟩
      interval := fun _ => Nat.one_le_iff_ne_zero.2 hlc
      savedInterval := fun _ => hs.interval hinit }
  | globalCal _ _ hinit cycles h1 =>
    exact .of_window hinit rfl (.inl ⟨rfl, rfl, rfl⟩) rfl rfl rfl (fun _ => h1) (hs.interval hinit)
  | coefficients _ hq =>
    have hinit := hs.init_of_busy (by simp [hq])
    obtain ⟨htarget, _, htmr⟩ := hs.phaseCal (.inl hq)
    exact {
      beforeInit := fun h => by simp [hinit] at h
      window := nofun
      noWindow := fun _ => hs.noWindow (by simp [hq])
      phaseCal := fun _ => ⟨htarget, rfl, htmr⟩
      interval := fun _ => hs.savedInterval hq
      savedInterval := nofun }
  | failed _ hq =>
    exact .of_idle (hs.init_of_busy (by simp [hq])) rfl (hs.noWindow (by simp [hq])) (hs.savedInterval hq)
  | corrected _ hq =>
    have hinit := hs.init_of_busy (by simp [hq])
    exact .of_idle hinit rfl (hs.noWindow (by simp [hq])) (hs.interval hinit)
  | globalDone _ hq hfin _ hui =>
    have hinit := hs.init_of_busy (by simp [hq])
    obtain ⟨hhot, _⟩ := hs.window hq
    have hf : s.cfs.start = false ∧ s.cfs.running = false := by simpa [Cfs.OneHot, hfin] using hhot
    exact .of_idle hinit rfl ⟨hf.1, hf.2, rfl⟩ (hui ▸ hs.interval hinit)
  | counted => exact { hs with }
  | windowStarts _ hrtc hstart =>
    have hq := hs.state_of_flag (.inl hstart)
    have hinit := hs.init_of_busy (by simp [hq])
    obtain ⟨hhot, _, htmr, _, hcnt⟩ := hs.window hq
    have hfin : s.cfs.finished = false := by simp [Cfs.OneHot, hstart] at hhot; exact hhot.2
    exact .of_window hinit hq (.inr (.inl ⟨rfl, rfl, hfin⟩)) hrtc htmr rfl hcnt (hs.interval hinit)
  | windowTicks _ hrtc _ hrun cycles h1 =>
    have hq := hs.state_of_flag (.inr (.inl hrun))
    have hinit := hs.init_of_busy (by simp [hq])
    obtain ⟨hhot, _, htmr, hadc, _⟩ := hs.window hq
    exact .of_window hinit hq hhot hrtc htmr hadc (fun _ => h1) (hs.interval hinit)
  | windowEnds _ hrtc hstart hrun =>
    have hq := hs.state_of_flag (.inr (.inl hrun))
    have hinit := hs.init_of_busy (by simp [hq])
    obtain ⟨_, _, htmr, _⟩ := hs.window hq
    exact .of_window hinit hq (.inr (.inr ⟨hstart, rfl, rfl⟩)) hrtc htmr rfl nofun (hs.interval hinit)

end Coherence

/-- Only DEINIT takes slots away, and none is added before INIT (R202, R205). -/
theorem slotsFrom_length {s : State} {i : Instr} {ph : List Slot} (h : SlotsFrom s i ph) (hi : i ≠ .deinit) :
    s.ph.length ≤ ph.length ∧ (s.ctrl.init = false → ph.length = s.ph.length) := by
  obtain ⟨_, hsame | ⟨hd, _⟩ | ⟨_, hmore, _, hinit⟩⟩ := h
  · exact ⟨hsame.ge, fun _ => hsame⟩
  · exact absurd hd hi
  · exact ⟨by omega, fun hn => by simp [hinit] at hn⟩

theorem exec_deinit_coherent {s t : State} (hs : s.ControlCoherent) (h : exec .deinit s = .next t) :
    t.ControlCoherent := by
  obtain ⟨hf, h'⟩ | ⟨_, _, h'⟩ := hostCommand_cases [busyCheck s] s.release [] s <;>
    cases h'.symm.trans h
  · have hq : s.seq.state = .idle := idle_of_not_busy (by simpa [busyCheck] using hf)
    have hs := (controlCoherent_iff s).1 hs
    exact (controlCoherent_iff _).2 {
      beforeInit := fun _ => ⟨rfl, rfl, rfl, hq, rfl⟩
      window := fun h => by simp [State.release, State.stopAll, hq] at h
      noWindow := hs.noWindow
      phaseCal := fun h => by simp [State.release, State.stopAll, hq] at h
      interval := nofun
      savedInterval := hs.savedInterval }
  · exact hs

theorem exec_coherent {i : Instr} {s t : State} (hs : s.ControlCoherent) (h : exec i s = .next t) :
    t.ControlCoherent := by
  by_cases hi : i = .deinit
  · subst hi; exact exec_deinit_coherent hs h
  · obtain ⟨hlen, hinit⟩ := slotsFrom_length (exec_slots h) hi
    rw [controlCoherent_iff] at hs ⊢
    exact controlChange_coherent hi (hs.more_slots hlen hinit) hlen (exec_control h)

/-- Settles O55, by cases on what an operation can make of the control state. -/
theorem stepKeepsControlCoherent : Obligations.StepKeepsControlCoherent := fun _ _ =>
  step_invariant (P := State.ControlCoherent) (fun _ _ _ _ _ _ _ => id) (fun _ _ => reset_controlCoherent)
    (fun _ _ _ => exec_coherent)

/-! ## Sag and swell (R33, R133) -/

/-- `SAG` and `SWELL` are not both set. -/
def PhaseStatus.Exclusive (t : PhaseStatus) : Prop := ¬(t.sag = true ∧ t.swell = true)

theorem cleared_exclusive : PhaseStatus.cleared.Exclusive := nofun

theorem measure_exclusive {p : Slot} (hp : p.status.Exclusive) (N : NumStructure) (cfg : Cfg) :
    (p.measure N cfg).status.Exclusive := by
  obtain ⟨_, status, _, h, rfl | hx⟩ := measure_frame N cfg p <;> rw [h]
  · exact hp
  · exact hx

theorem slotChange_exclusive {s : State} {i : Instr} {k : Nat} {p q : Slot} (hp : p.status.Exclusive)
    (h : SlotChange s i k p q) : q.status.Exclusive := by
  cases h with
  | kept | detected | accReset | accumulated | accLoaded | entered | coefLoaded | taken => exact hp
  | sampled =>
    obtain ⟨_, _, _, _, _, h, _⟩ := phaseSample_frame s.par s.cfg.updateInterval p
    rw [h]; exact hp
  | angleSampled =>
    obtain ⟨_, _, _, h, _⟩ := angleSample_frame s.num s.cfg.updateInterval p
    rw [h]; exact hp
  | adc _ _ _ t =>
    obtain ⟨_, _, _, _, _, _, _, h, _⟩ := takeSample_frame s.num s.par s.cfg.updateInterval p t
    rw [h]; exact hp
  | measured => exact measure_exclusive hp _ _
  | reset | calibrating | secondStage | finished => exact cleared_exclusive

/-- A property of the single slot that every change keeps and a newly registered slot has, holds of every slot after an
operation. -/
theorem slotsFrom_forall {s : State} {i : Instr} {ph : List Slot} {P : Slot → Prop}
    (hreg : P (Slot.registration s.num)) (hchange : ∀ k p q, P p → SlotChange s i k p q → P q)
    (hs : ∀ p ∈ s.ph, P p) (h : SlotsFrom s i ph) : ∀ q ∈ ph, P q := by
  intro q hq
  obtain ⟨k, hk⟩ := List.getElem?_of_mem hq
  obtain ⟨p, hp, hc⟩ | ⟨_, _, _, _, rfl⟩ := h.1 k q hk
  · exact hchange k p q (hs p (List.mem_of_getElem? hp)) hc
  · exact hreg

/-- Settles O57: only a measurement sets either flag, and it sets at most one. -/
theorem stepKeepsSagAndSwellExclusive : Obligations.StepKeepsSagAndSwellExclusive := fun _ _ =>
  step_invariant (P := State.StatusExclusive) (fun _ _ _ _ _ _ _ => id) (fun _ _ => List.forall_mem_nil _)
    fun _ _ _ hs he =>
      slotsFrom_forall (P := fun p => p.status.Exclusive) cleared_exclusive (fun _ _ _ => slotChange_exclusive) hs
        (exec_slots he)

/-! ## The angle sub-mode (R32, R160, R170, R171) -/

theorem angleOwned_of_none {s : State} (h : ∀ (k : Nat) (p : Slot), s.ph[k]? = some p → p.sig.calAngle = false) :
    s.AngleOwned :=
  fun k p hp hc => by simp [h k p hp] at hc

theorem State.AngleOwned.none_of_state {s : State} (hs : s.AngleOwned) (hq : s.seq.state ≠ .pcalW2) (k : Nat) (p : Slot)
    (hp : s.ph[k]? = some p) : p.sig.calAngle = false :=
  Bool.eq_false_of_not_eq_true fun hc => hq (hs k p hp hc).1

/-- Outside SEQ_STEP no step of an agent puts a slot into the sub-mode. -/
theorem slotChange_calAngle {s : State} {i : Instr} {k : Nat} {p q : Slot} (ha : Instr.isAgentStep i = true)
    (hi : i ≠ .seqStep) (h : SlotChange s i k p q) (hq : q.sig.calAngle = true) : p.sig.calAngle = true := by
  cases h with
  | kept | coefLoaded | taken => exact hq
  | adc _ _ _ t =>
    obtain ⟨_, _, _, _, _, _, _, h, hc⟩ := takeSample_frame s.num s.par s.cfg.updateInterval p t
    rw [h] at hq; exact hc hq
  | measured =>
    obtain ⟨_, _, _, h, _⟩ := measure_frame s.num s.cfg p
    rw [h] at hq; exact hq
  | calibrating => cases hq
  | secondStage h | finished h => exact absurd h hi
  | detected h | accReset h | accumulated h | accLoaded h | sampled h | reset h | entered h | angleSampled h =>
    subst h; cases ha

/-- While a sequence runs, only SEQ_STEP writes the sequencer (R161, R174). -/
theorem controlChange_seq_of_busy {s : State} {i : Instr} {ct : Ctrl} {c : Cfg} {f : Cfs} {q : Seq}
    (h : ControlChange s i ct c f q) (hi : i ≠ .seqStep) (hq : s.seq.state ≠ .idle) : q = s.seq := by
  cases h with
  | phaseCal _ _ _ hb | globalCal _ hb => exact absurd (idle_of_not_busy hb) hq
  | coefficients h | failed h | corrected h | globalDone h => exact absurd h hi
  | kept | configured | released | started | stopped | counted | windowStarts | windowTicks | windowEnds => rfl

theorem angleOwned_of_slots {i : Instr} {s t : State} (ha : Instr.isAgentStep i = true) (hi : i ≠ .seqStep)
    (hs : s.AngleOwned) (h : exec i s = .next t) : t.AngleOwned := by
  intro k q hk hq
  obtain ⟨p, hp, hc⟩ | ⟨_, _, _, _, rfl⟩ := (exec_slots h).1 k q hk
  · have hown := hs k p hp (slotChange_calAngle ha hi hc hq)
    rwa [controlChange_seq_of_busy (exec_control h) hi (by simp [hown.1])]
  · cases hq

/-- One slot replaced by one outside the sub-mode, no other being in it. -/
theorem calAngle_of_set {ph : List Slot} {k : Nat} {q : Slot}
    (hph : ∀ (j : Nat) (p : Slot), ph[j]? = some p → j ≠ k → p.sig.calAngle = false) (hq : q.sig.calAngle = false)
    (j : Nat) (p : Slot) (hp : (ph.set k q)[j]? = some p) : p.sig.calAngle = false := by
  by_cases hj : k = j
  · subst hj
    have hk := (List.getElem?_eq_some_iff.1 hp).1
    rw [List.length_set] at hk
    cases (List.getElem?_set_self hk).symm.trans hp
    exact hq
  · rw [List.getElem?_set_ne hj] at hp
    exact hph j p hp (Ne.symm hj)

theorem finishCoefficients_angleOwned {s : State} (hs : s.AngleOwned) (hq : s.seq.state = .pcalW1) (p : Slot) :
    (s.finishCoefficients p).AngleOwned := by
  have hnone := hs.none_of_state (by simp [hq])
  unfold State.finishCoefficients
  dsimp only
  split
  · intro k r hr hc
    refine ⟨rfl, ?_⟩
    by_contra hk
    have hr : s.ph[k]? = some r := (List.getElem?_set_ne hk).symm.trans hr
    simp [hnone k r hr] at hc
  · exact angleOwned_of_none (calAngle_of_set (fun k r hr _ => hnone k r hr) rfl)

theorem finishAngle_angleOwned {s : State} (hs : s.AngleOwned) (p : Slot) : (s.finishAngle p).AngleOwned :=
  angleOwned_of_none (calAngle_of_set
    (fun k r hr hk => Bool.eq_false_of_not_eq_true fun hc => hk (hs k r hr hc).2.symm) rfl)

theorem finishGlobal_angleOwned {s : State} (hs : s.AngleOwned) (hq : s.seq.state = .gcalW) :
    s.finishGlobal.AngleOwned := by
  have hnone := hs.none_of_state (by simp [hq])
  unfold State.finishGlobal
  dsimp only
  split <;> exact angleOwned_of_none hnone

theorem seqStep_angleOwned {s t : State} (hs : s.AngleOwned) (h : execSeqStep s = .next t) : t.AngleOwned := by
  obtain rfl | ⟨p, hq, _, _, rfl⟩ | ⟨p, _, _, _, rfl⟩ | ⟨hq, _, rfl⟩ := seqStep_cases h
  · exact hs
  · exact finishCoefficients_angleOwned hs hq p
  · exact finishAngle_angleOwned hs p
  · exact finishGlobal_angleOwned hs hq

theorem exec_angleOwned {i : Instr} {s t : State} (ha : Instr.isAgentStep i = true) (hs : s.AngleOwned)
    (h : exec i s = .next t) : t.AngleOwned := by
  by_cases hi : i = .seqStep
  · subst hi; exact seqStep_angleOwned hs h
  · exact angleOwned_of_slots ha hi hs h

/-- Settles O59: SEQ_STEP enters the sub-mode with its target only, and leaves the second stage with no slot in it. -/
theorem stepKeepsAngleModeOwned : Obligations.StepKeepsAngleModeOwned := fun _ _ ha hs h =>
  ⟨step_keepsAgentsOnly ha h,
    step_invariant (P := State.AngleOwned) (fun _ _ _ _ _ _ _ => id) (fun _ _ _ _ => nofun)
      (fun _ _ hi => exec_angleOwned (hi ha)) hs h⟩

/-! ## Snapshots (R30, R117, R132) -/

/-- A set whose sums of squares are not negative. -/
def Accum.SquaresNonneg (a : Accum) : Prop := 0 ≤ a.vacc ∧ 0 ≤ a.iacc

/-- A ready snapshot counts a sample, and no sum of squares is negative. -/
structure Slot.Measurable (p : Slot) : Prop where
  counted : p.sig.accReady = true → 1 ≤ p.snap.n
  live : p.live.SquaresNonneg
  snap : p.snap.SquaresNonneg

theorem snapshotsMeasurable_iff (s : State) :
    s.SnapshotsMeasurable ↔ (s.fault.ovf = false → ∀ p ∈ s.ph, p.Measurable) :=
  ⟨fun h ho p hp => let ⟨hc, hlv, hli, hsv, hsi⟩ := h ho p hp; ⟨hc, ⟨hlv, hli⟩, ⟨hsv, hsi⟩⟩,
    fun h ho p hp => let ⟨hc, ⟨hlv, hli⟩, ⟨hsv, hsi⟩⟩ := h ho p hp; ⟨hc, hlv, hli, hsv, hsi⟩⟩

theorem cleared_squaresNonneg : Accum.cleared.SquaresNonneg := ⟨le_rfl, le_rfl⟩

theorem contribution_squaresNonneg (t : Triple) : t.contribution.SquaresNonneg :=
  ⟨mul_self_nonneg t.v, mul_self_nonneg t.i⟩

/-- An accumulation without overflow adds squares and counts (R112). -/
theorem accumulate_squaresNonneg {par : Params} {t : Triple} {a : Accum} (ho : (a.accumulate par t).ovf = false)
    (ha : a.SquaresNonneg) : (a.accumulate par t).val.SquaresNonneg ∧ 1 ≤ (a.accumulate par t).val.n := by
  rw [accumulate_exact ho]
  exact ⟨⟨add_nonneg ha.1 (mul_self_nonneg _), add_nonneg ha.2 (mul_self_nonneg _)⟩, Nat.le_add_left ..⟩

/-- Hard reset leaves zeros and no ready flag, whatever the coefficients and the angle state. -/
theorem blank_measurable (coef : Coef) {sig : Signals} (hr : sig.accReady = false) (ang : Angle) :
    (Slot.blank coef sig ang).Measurable :=
  ⟨fun h => absurd (hr.symm.trans h) Bool.false_ne_true, cleared_squaresNonneg, cleared_squaresNonneg⟩

/-- PHASE_SAMPLE without overflow (R114, R117). -/
theorem phaseSample_measurable {par : Params} {ui : Nat} {p : Slot} (hp : p.Measurable)
    (ho : (p.phaseSample par ui).ovf = false) : (p.phaseSample par ui).val.Measurable := by
  obtain ⟨_, h⟩ | ⟨_, _, h⟩ | ⟨_, _, h⟩ := phaseSample_cases par ui p _ _ rfl rfl <;> rw [h] at ho ⊢
  · exact { hp with }
  · obtain ⟨hsq, _⟩ := accumulate_squaresNonneg (Bool.or_eq_false_iff.1 ho).2 hp.live
    exact { hp with live := hsq }
  · obtain ⟨hsq, hn⟩ := accumulate_squaresNonneg (Bool.or_eq_false_iff.1 ho).2 hp.live
    exact ⟨fun _ => hn, contribution_squaresNonneg _, hsq⟩

theorem takeSample_measurable {N : NumStructure} {par : Params} {ui : Nat} {p : Slot} {t : Triple} (hp : p.Measurable)
    (ho : (p.takeSample N par ui t).ovf = false) : (p.takeSample N par ui t).val.Measurable := by
  have hloaded : Slot.Measurable { p with ws := t } := { hp with }
  rcases hc : p.sig.calAngle
  · rw [takeSample_normal hc] at ho ⊢
    exact phaseSample_measurable hloaded ho
  · obtain ⟨_, _, _, h, _⟩ := angleSample_frame N ui { p with ws := t }
    rw [takeSample_angle hc, h]
    exact { hp with }

/-- Outside EV_ADC an agent's step changes no accumulator but by a hard reset. -/
theorem slotChange_measurable {s : State} {i : Instr} {k : Nat} {p q : Slot} (ha : Instr.isAgentStep i = true)
    (hi : i ≠ .evAdc) (hp : p.Measurable) (h : SlotChange s i k p q) : q.Measurable := by
  cases h with
  | kept | coefLoaded | taken => exact { hp with }
  | adc h => exact absurd h hi
  | measured =>
    obtain ⟨_, _, _, h, _⟩ := measure_frame s.num s.cfg p
    rw [h]
    exact { hp with counted := nofun }
  | calibrating => exact blank_measurable _ rfl _
  | secondStage _ _ _ c => exact blank_measurable c (sig := ⟨false, false, true⟩) rfl _
  | finished _ _ _ c => exact blank_measurable c rfl _
  | detected h | accReset h | accumulated h | accLoaded h | sampled h | reset h | entered h | angleSampled h =>
    subst h; cases ha

/-- EV_ADC leaves the phase table, or leaves the one of the phase processing and every overflow of it (R190). -/
theorem evAdc_phases {s t : State} (h : execEvAdc s = .next t) :
    t.ph = s.ph ∨ (t.ph = s.processPhases.ph ∧ (s.processPhases.fault.ovf = true → t.fault.ovf = true)) := by
  unfold execEvAdc at h
  split_ifs at h <;> cases h
  · exact .inl rfl
  · exact .inr ⟨rfl, id⟩
  · obtain ⟨_, _, _, h1⟩ := ledDecay_frame s.processPhases
    obtain ⟨_, _, _, _, h2⟩ := energyRoute_frame s.processPhases.ledDecay
    exact .inr ⟨by rw [h2, h1], (effect_energyTail s.processPhases).ovf⟩
  · exact .inl rfl

theorem processPhases_measurable {s : State} (ho : s.processPhases.fault.ovf = false) (hs : ∀ p ∈ s.ph, p.Measurable) :
    ∀ q ∈ s.processPhases.ph, q.Measurable := by
  intro q hq
  obtain ⟨r, hr, rfl⟩ := List.mem_map.1 hq
  have hovf : r.ovf = false := by
    simp only [State.processPhases, State.noteOvf_fault, Bool.or_eq_false_iff, List.any_eq_false] at ho
    exact Bool.eq_false_of_not_eq_true (ho.2 r hr)
  obtain ⟨k, hk⟩ := List.getElem?_of_mem hr
  obtain ⟨p, t, hp, _, rfl⟩ := List.getElem?_zipWith_eq_some.1 hk
  exact takeSample_measurable (hs p (List.mem_of_getElem? hp)) hovf

theorem exec_measurable {i : Instr} {s t : State} (ha : Instr.isAgentStep i = true) (hs : s.SnapshotsMeasurable)
    (h : exec i s = .next t) : t.SnapshotsMeasurable := by
  rw [snapshotsMeasurable_iff] at hs ⊢
  intro ho
  have kept_false {u : State} (hu : u.fault.ovf = true → t.fault.ovf = true) : u.fault.ovf = false :=
    Bool.eq_false_of_not_eq_true fun hc => by simp [hu hc] at ho
  have hs := hs (kept_false (exec_effect h).ovf)
  by_cases hi : i = .evAdc
  · subst hi
    obtain hph | ⟨hph, hovf⟩ := evAdc_phases h <;> rw [hph]
    · exact hs
    · exact processPhases_measurable (kept_false hovf) hs
  · exact slotsFrom_forall (blank_measurable _ rfl _) (fun _ _ _ => slotChange_measurable ha hi) hs (exec_slots h)

/-- Settles O56: only EV_ADC accumulates, and an accumulation without overflow adds squares and counts the sample. -/
theorem stepKeepsSnapshotsMeasurable : Obligations.StepKeepsSnapshotsMeasurable := fun _ _ ha hs h =>
  ⟨step_keepsAgentsOnly ha h,
    step_invariant (P := State.SnapshotsMeasurable) (fun _ _ _ _ _ _ _ => id) (fun _ _ _ => List.forall_mem_nil _)
      (fun _ _ hi => exec_measurable (hi ha)) hs h⟩

end Sys2Proof.Machine
end

section
/-! Single operations: steps that are not enabled (R240), operands that are refused (R231), and the commands that load
the configuration, register a slot and read one field of a slot. -/

namespace Sys2Proof.Machine

/-! ## Steps that are not enabled -/

theorem exec_evAdc_disabled {s : State} (h : s.adcEnabled = false) : exec .evAdc s = .next s := by
  simp only [exec, execEvAdc, h, Bool.false_eq_true, if_false]

theorem exec_evTmr_disabled {s : State} (h : s.ctrl.tmrEn = false) : exec .evTmr s = .next s := by
  simp only [exec, execEvTmr, h, Bool.false_eq_true, if_false]

theorem exec_evRtc_disabled {s : State} (h : s.ctrl.rtcEn = false) : exec .evRtc s = .next s := by
  simp only [exec, execEvRtc, h, Bool.false_eq_true, if_false]

/-- An enabled EV_ADC runs, and has one triple in range for each slot (R75, R240). -/
theorem of_adcEnabled {s : State} (h : s.adcEnabled = true) :
    s.ctrl.adcEn = true ∧ s.smp.length = s.ph.length ∧ ∀ t ∈ s.smp, t.Fits s.par.sampleW := by
  refine ⟨?_, ?_, fun t ht => ?_⟩
  · simp only [State.adcEnabled, Bool.and_eq_true] at h
    exact h.1
  · simp only [State.adcEnabled, State.sampleInputOk, Bool.and_eq_true, beq_iff_eq] at h
    exact h.2.1
  · obtain ⟨k, hk⟩ := List.getElem?_of_mem ht
    exact triple_fits_of_adcEnabled h hk

/-- An operation that leaves the contents of its slot leaves the state. -/
theorem updateSlot_eq_self {s : State} {k : Nat} {p : Slot} {f : Slot → Stored Slot} (hp : s.ph[k]? = some p)
    (h : f p = ⟨p, false⟩) : s.updateSlot k f = s := by
  obtain ⟨hk, hget⟩ := List.getElem?_eq_some_iff.1 hp
  rw [updateSlot_some hp, h, Bool.or_false, ← hget, List.set_getElem_self]

theorem exec_slotMicro_unregistered {i : Instr} {s : State} (hm : i.opClass = .micro) (hl : i ≠ .ledDecay)
    (hr : i ≠ .energyRoute) (hq : i ≠ .seqStep) (hk : s.nPhases ≤ i.phase) : exec i s = .next s := by
  obtain ⟨f, hf⟩ := exec_slotMicro hm hl hr hq s
  rw [hf, updateSlot_none (List.getElem?_eq_none hk)]

/-- Settles O29: an event by its enabling condition, SEQ_STEP by the flag it polls, a micro-operation by its slot. -/
theorem disabledOperationsDoNothing : Obligations.DisabledOperationsDoNothing := by
  intro s
  have hadc (h : s.adcEnabled = true → False) : exec .evAdc s = .next s :=
    exec_evAdc_disabled (Bool.eq_false_of_not_eq_true h)
  refine ⟨fun h => hadc fun he => ?_, fun h => hadc fun he => h (of_adcEnabled he).2.1,
    fun ⟨t, ht, h⟩ => hadc fun he => h ((of_adcEnabled he).2.2 t ht), exec_evTmr_disabled, exec_evRtc_disabled,
    execSeqStep_idle, fun p h hp hr => ?_, fun p h hp hc => ?_, fun h hf => ?_, fun k hk i hi => ?_,
    fun k p hp => ⟨fun hc => ?_, fun hc => ?_, fun hr => ?_⟩⟩
  · exact Bool.false_ne_true (h.symm.trans (of_adcEnabled he).1)
  · exact (execSeqStep_first h hp).trans (by rw [hr]; rfl)
  · exact (execSeqStep_second h hp).trans (by rw [hc]; rfl)
  · exact (execSeqStep_global h).trans (by rw [hf]; rfl)
  · simp only [List.mem_cons, List.not_mem_nil, or_false] at hi
    obtain rfl | rfl | rfl | rfl | rfl | rfl | rfl | rfl | rfl := hi <;>
      exact exec_slotMicro_unregistered rfl nofun nofun nofun hk
  · exact congrArg _ (updateSlot_eq_self hp (if_pos hc))
  · exact congrArg _ (updateSlot_eq_self hp (if_neg (by simp [hc])))
  · exact congrArg _ (updateSlot_eq_self hp (by rw [timerTick_idle hr]))

/-! ## Operands (R81) -/

theorem numOperand_eq_none (N : NumStructure) (legal : NumValue → Bool) (w : Word) :
    numOperand N legal w = none ↔ ∀ x, N.dec w = some x → legal x = false := by
  unfold numOperand
  rcases N.dec w with _ | x <;> simp

theorem numOperand_of_dec {N : NumStructure} {legal : NumValue → Bool} {w : Word} {x : NumValue}
    (hd : N.dec w = some x) (hl : legal x = true) : numOperand N legal w = some x := by
  simp only [numOperand, hd, if_pos hl]

theorem natOperand_eq_none (lo hi : Nat) (w : Word) : natOperand lo hi w = none ↔ w.toNat < lo ∨ hi < w.toNat := by
  simp only [natOperand, ite_eq_right_iff, reduceCtorEq, imp_false]
  omega

theorem natOperand_of_range {lo hi : Nat} {w : Word} (hlo : lo ≤ w.toNat) (hhi : w.toNat ≤ hi) :
    natOperand lo hi w = some w.toNat :=
  if_pos ⟨hlo, hhi⟩

/-- An operand that must be a number only is refused when it is INVALID. -/
theorem anyOperand_eq_none {N : NumStructure} {w : Word} (h : N.dec w = none) : numOperand N anyNum w = none := by
  simp [numOperand_eq_none, h]

section Operands

variable {N : NumStructure} {a : Vector Word 16}

theorem readCfg_eq_none
    (h : natOperand 1 65535 a[0] = none ∨ natOperand 0 (2 ^ 32 - 2) a[7] = none ∨
      numOperand N anyNum a[1] = none ∨ numOperand N anyNum a[2] = none ∨ numOperand N anyNum a[5] = none ∨
      numOperand N anyNum a[6] = none ∨ numOperand N anyNum a[9] = none ∨ numOperand N anyNum a[10] = none ∨
      numOperand N N.positive a[3] = none ∨ numOperand N (nonNegative N) a[4] = none ∨
      numOperand N N.positive a[8] = none) : readCfg N a = none := by
  unfold readCfg
  split
  · simp_all
  · rfl

theorem readCoef_eq_none
    (h : numOperand N anyNum a[3] = none ∨ numOperand N N.positive a[0] = none ∨
      numOperand N N.positive a[1] = none ∨ numOperand N N.positive a[2] = none) : readCoef N a = none := by
  unfold readCoef
  split
  · simp_all
  · rfl

theorem readTargets_eq_none (h : numOperand N N.positive a[0] = none ∨ numOperand N N.positive a[1] = none) :
    readTargets N a = none := by
  unfold readTargets
  split
  · simp_all
  · rfl

theorem readWindow_eq_none
    (h : natOperand 1 (2 ^ 32 - 1) a[0] = none ∨ numOperand N N.positive a[1] = none ∨
      numOperand N N.positive a[2] = none) : readWindow N a = none := by
  unfold readWindow
  split
  · simp_all
  · rfl

theorem readAccumulators_eq_none {limit : NumValue} {c : Fin 8}
    (h : numOperand N (belowLimit N limit) a[c.val] = none) : readAccumulators N limit a = none := by
  unfold readAccumulators
  split
  · fin_cases c <;> simp_all
  · rfl

theorem readLifetimes_eq_none {lifeW : Nat} {c : Fin 8} (h : natOperand 0 (2 ^ lifeW - 1) a[8 + c.val] = none) :
    readLifetimes lifeW a = none := by
  unfold readLifetimes
  split
  · fin_cases c <;> simp_all
  · rfl

end Operands

/-! ## The command whose operands are refused (R231) -/

section Refused

variable {s : State}

theorem exec_init_refused (hb : s.busy = false) (ha : s.ctrl.adcEn = false) (ht : s.ctrl.tmrEn = false)
    (h : readCfg s.num s.A = none) : exec .init s = .next { s with rc := .errArg } := by
  simp only [exec, execInit, h]
  exact hostCommand_fails (by simp [busyCheck, samplingCheck, hb, ha, ht]) ..

theorem exec_phaseLoadCal_refused {k : Nat} (hb : s.busy = false) (hk : k < s.nPhases)
    (h : readCoef s.num s.A = none) : exec (.phaseLoadCal k) s = .next { s with rc := .errArg } := by
  simp only [exec, execPhaseLoadCal, h]
  exact hostCommand_fails (by simp [busyCheck, phaseCheck, State.registered, hb, hk]) ..

theorem exec_phaseCalibrate_refused {k lc : Nat} (hb : s.busy = false) (hi : s.ctrl.init = true) (hk : k < s.nPhases)
    (h : lc = 0 ∨ readTargets s.num s.A = none) :
    exec (.phaseCalibrate k lc) s = .next { s with rc := .errArg } := by
  simp only [exec, execPhaseCalibrate]
  split
  · exact hostCommand_fails (by simp [busyCheck, initCheck, phaseCheck, State.registered, hb, hi, hk]) ..
  · have hlc : lc = 0 := by simp_all
    exact hostCommand_fails (by simp [busyCheck, initCheck, phaseCheck, State.registered, hb, hi, hk, hlc]) ..

theorem exec_globalCalibrate_refused (hb : s.busy = false) (hi : s.ctrl.init = true)
    (h : readWindow s.num s.A = none) : exec .globalCalibrate s = .next { s with rc := .errArg } := by
  simp only [exec, execGlobalCalibrate, h]
  exact hostCommand_fails (by simp [busyCheck, initCheck, hb, hi]) ..

theorem exec_energySet_refused (hi : s.ctrl.init = true)
    (h : readAccumulators s.num s.cfg.meterConstant s.A = none ∨ readLifetimes s.par.lifeW s.A = none) :
    exec .energySet s = .next { s with rc := .errArg } := by
  simp only [exec, execEnergySet]
  split
  · simp_all
  · exact hostCommand_fails (by simp [initCheck, hi]) ..

end Refused

/-- Settles O38: each illegal operand makes the reader of its command answer `none`. -/
theorem illegalOperandIsRefused : Obligations.IllegalOperandIsRefused := by
  intro s
  have notPositive {w : Word} (h : ∀ x, s.num.dec w = some x → s.num.lt NumValue.zero x = false) :
      numOperand s.num s.num.positive w = none := (numOperand_eq_none ..).2 h
  have tooSmall {hi : Nat} {w : Word} (h : w = 0#32) : natOperand 1 hi w = none :=
    (natOperand_eq_none ..).2 (.inl (by simp [h]))
  have tooLarge {w : Word} (h : w = 0xFFFFFFFF#32) : natOperand 0 (2 ^ 32 - 2) w = none :=
    (natOperand_eq_none ..).2 (.inr (by simp [h]))
  have notNumber {w : Word} : s.num.dec w = none → numOperand s.num anyNum w = none := anyOperand_eq_none
  refine ⟨fun hb ha ht h => exec_init_refused hb ha ht (readCfg_eq_none ?_),
    fun k hb hk h => exec_phaseLoadCal_refused hb hk (readCoef_eq_none ?_),
    fun k lc hb hi hk h => exec_phaseCalibrate_refused hb hi hk (h.imp_right fun h => readTargets_eq_none ?_),
    fun hb hi h => exec_globalCalibrate_refused hb hi (readWindow_eq_none ?_),
    fun hi ⟨c, h⟩ => exec_energySet_refused hi ?_⟩
  · obtain h | h | h := h
    · exact .inl (tooSmall h)
    · exact .inl ((natOperand_eq_none ..).2 (.inr h))
    · exact .inr (h.imp tooLarge (.imp notNumber (.imp notNumber (.imp notNumber (.imp notNumber (.imp notNumber
        (.imp notNumber (.imp notPositive (.imp (numOperand_eq_none ..).2 notPositive)))))))))
  · exact h.imp notNumber (.imp notPositive (.imp notPositive notPositive))
  · exact h.imp notPositive notPositive
  · exact h.imp tooSmall (.imp notPositive notPositive)
  · refine h.imp (fun h => readAccumulators_eq_none (c := c) ?_) fun h => readLifetimes_eq_none (c := c) ?_
    · exact (numOperand_eq_none ..).2 fun x hx => by
        rcases h x hx with h | h <;> simp [belowLimit, h]
    · exact (natOperand_eq_none ..).2 (.inr (Nat.lt_of_lt_of_le (Nat.pred_lt (Nat.two_pow_pos _).ne') h))

/-! ## INIT and PHASE_REGISTER (R201, R205) -/

/-- Settles O41: every operand is legal, so INIT loads them. -/
theorem initLoadsTheConfiguration : Obligations.InitLoadsTheConfiguration := by
  intro s tl th mc nl sag swl fs flc dps hb ha ht h0 h0' h7 h1 h2 h3 h4 h5 h6 h8 h9 h10 hmc hnl hfs
  have any {w : Word} {x : NumValue} (h : s.num.dec w = some x) : numOperand s.num anyNum w = some x :=
    numOperand_of_dec h rfl
  have hcfg : readCfg s.num s.A =
      some ⟨s.A[0].toNat, tl, th, mc, nl, sag, swl, s.A[7].toNat, fs, flc, dps⟩ := by
    simp only [readCfg, natOperand_of_range h0 h0', natOperand_of_range (Nat.zero_le _) h7, any h1, any h2,
      numOperand_of_dec (legal := s.num.positive) h3 hmc, numOperand_of_dec (legal := nonNegative s.num) h4 hnl, any h5,
      any h6, numOperand_of_dec (legal := s.num.positive) h8 hfs, any h9, any h10]
  simp only [exec, execInit, hcfg]
  rw [hostCommand_passes (by simp [busyCheck, samplingCheck, hb, ha, ht]), respond_nil]
  simp [State.configure, State.emit]

/-- Settles O43: the check for a free slot is the last one, and decides between the two ends of the command. -/
theorem phaseRegisterAppendsASlot : Obligations.PhaseRegisterAppendsASlot := by
  intro s hb hi ha ht
  have hchecks (full : Bool) :
      firstFailure [busyCheck s, initCheck s, samplingCheck s, (full, .errFull)] =
        if full then some .errFull else none := by
    simp [busyCheck, initCheck, samplingCheck, hb, hi, ha, ht]
  refine ⟨fun hfree => ?_, fun hfull => ?_⟩
  · refine (hostCommand_passes ?_ ..).trans (by rw [respond_one, registration_eq]; rfl)
    rw [hchecks, decide_eq_false (by omega), if_neg Bool.false_ne_true]
  · refine hostCommand_fails ?_ ..
    rw [hchecks, decide_eq_true hfull, if_pos rfl]

/-! ## The single getters (R209 to R215) -/

/-- A getter of one word of a registered slot. -/
theorem readSlotCommand_one {s : State} {k : Nat} {p : Slot} (h : s.ph[k]? = some p) (word : Slot → Word) :
    readSlotCommand k (fun p => [word p]) s = .next { s with rc := .ok, R := s.R.set 0 (word p) } := by
  rw [readSlotCommand_some h, respond_one]

/-- Settles O47: each is a getter of one word. -/
theorem singleGettersReadTheSlot : Obligations.SingleGettersReadTheSlot := by
  intro k s p hp
  have hget := readSlotCommand_one hp
  exact ⟨hget fun p => p.status.word, hget _, hget _, hget _, hget _, hget _, hget _⟩

/-! ## Power-on reset (R44, R250) -/

/-- Settles O9: the reset state is written out, and no event is enabled in it. -/
theorem powerOnResetClearsTheBlock : Obligations.PowerOnResetClearsTheBlock := by
  intro s rest h
  refine ⟨powerOnReset { s with inbox := rest }, step_of_inbox h, rfl, rfl, rfl, rfl, rfl, rfl,
    fun c => by cases c <;> exact ⟨rfl, rfl⟩, fun l => by cases l <;> rfl, rfl, rfl, fun j => ?_, rfl, rfl,
    exec_evAdc_disabled rfl, exec_evTmr_disabled rfl, exec_evRtc_disabled rfl,
    execSeqStep_idle (s := powerOnReset _) rfl⟩
  exact ⟨Vector.getElem_replicate j.isLt, Vector.getElem_replicate j.isLt⟩

end Sys2Proof.Machine
end

section
/-! The host port: the window and its registers (R60 to R63), and what stops the machine (R232, R236). -/

namespace Sys2Proof.Machine

/-! ## The window and the register map (R60, R61) -/

theorem windowOffset_add {par : Params} {off : Nat} (h : off < 0x100) :
    windowOffset par (par.hostBase + off) = some off := by
  rw [windowOffset, if_pos (by omega), Nat.add_sub_cancel_left]

theorem windowOffset_eq_none (par : Params) (addr : Nat) :
    windowOffset par addr = none ↔ addr < par.hostBase ∨ par.hostBase + 0x100 ≤ addr := by
  unfold windowOffset
  split <;> simp <;> omega

theorem admitted_iff (off width : Nat) : admitted off width = true ↔ off % 4 = 0 ∧ width = 32 := by simp [admitted]

theorem portRegister_operand (j : Fin 16) : portRegister (0x040 + 4 * j.val) = .operand j := by
  have hj : Fin.ofNat 16 ((0x040 + 4 * j.val - 0x040) / 4) = j := Fin.ext (by simp)
  rw [portRegister, if_neg (by omega), if_neg (by omega), if_pos (by omega), hj]

theorem portRegister_response (j : Fin 16) : portRegister (0x080 + 4 * j.val) = .response j := by
  have hj : Fin.ofNat 16 ((0x080 + 4 * j.val - 0x080) / 4) = j := Fin.ext (by simp)
  rw [portRegister, if_neg (by omega), if_neg (by omega), if_neg (by omega), if_pos (by omega), hj]

theorem portRegister_reserved {off : Nat} (ha : off % 4 = 0)
    (h : (0x008 ≤ off ∧ off < 0x040) ∨ (0x0C0 ≤ off ∧ off < 0x100)) : portRegister off = .reserved := by
  rw [portRegister, if_neg (by omega), if_neg (by omega), if_neg (by omega), if_neg (by omega)]

/-- Past `OPW` and outside the operands every register of the map ignores a write (R61). -/
theorem writeRegister_ignored {off : Nat}
    (h : (0x004 ≤ off ∧ off < 0x040) ∨ (0x080 ≤ off ∧ off < 0x100)) (v : Word) (s : State) :
    writeRegister (portRegister off) v s = .next s := by
  rw [portRegister, if_neg (by omega)]
  split
  · rfl
  · rw [if_neg (by omega)]
    split <;> rfl

/-! ## One access in the window (R62, R63) -/

section Access

variable {s : State} {off width : Nat}

theorem hostRead_admitted (h : off < 0x100) (ha : off % 4 = 0) :
    hostRead (s.par.hostBase + off) 32 s = .next { s with rdata := s.readRegister (portRegister off) } := by
  simp only [hostRead, windowOffset_add h, if_pos ((admitted_iff off 32).2 ⟨ha, rfl⟩)]

theorem hostWrite_admitted (h : off < 0x100) (ha : off % 4 = 0) (v : Word) :
    hostWrite (s.par.hostBase + off) 32 v s = writeRegister (portRegister off) v s := by
  simp only [hostWrite, windowOffset_add h, if_pos ((admitted_iff off 32).2 ⟨ha, rfl⟩)]

theorem hostRead_inadmissible (h : off < 0x100) (ha : off % 4 ≠ 0 ∨ width ≠ 32) :
    hostRead (s.par.hostBase + off) width s = .next { s.noteBus with rdata := 0#32 } := by
  simp only [hostRead, windowOffset_add h, if_neg (mt (admitted_iff off width).1 (by omega))]

theorem hostWrite_inadmissible (h : off < 0x100) (ha : off % 4 ≠ 0 ∨ width ≠ 32) (v : Word) :
    hostWrite (s.par.hostBase + off) width v s = .next s.noteBus := by
  simp only [hostWrite, windowOffset_add h, if_neg (mt (admitted_iff off width).1 (by omega))]

end Access

/-- Settles O6: an admitted access reads or writes the register of its offset. -/
theorem hostPortRegisterMap : Obligations.HostPortRegisterMap := by
  refine fun s rest off v => ⟨fun hin => ?_, fun hin => ?_⟩
  · have hread (h : off < 0x100) (ha : off % 4 = 0) :
        step s = .next { s with inbox := rest, rdata := s.readRegister (portRegister off) } :=
      (step_of_inbox hin).trans (hostRead_admitted (s := { s with inbox := rest }) h ha)
    refine ⟨?_, ?_, ?_, ?_, ?_⟩
    · rintro rfl
      exact hread (by decide) rfl
    · rintro rfl
      exact hread (by decide) rfl
    · rintro j rfl
      rw [hread (by omega) (by omega), portRegister_operand]
      rfl
    · rintro j rfl
      rw [hread (by omega) (by omega), portRegister_response]
      rfl
    · intro ha hr
      rw [hread (by omega) ha, portRegister_reserved ha hr]
      rfl
  · have hwrite (h : off < 0x100) (ha : off % 4 = 0) :
        step s = writeRegister (portRegister off) v { s with inbox := rest } :=
      (step_of_inbox hin).trans (hostWrite_admitted (s := { s with inbox := rest }) h ha v)
    refine ⟨?_, ?_, ?_⟩
    · rintro rfl
      exact hwrite (by decide) rfl
    · rintro j rfl
      rw [hwrite (by omega) (by omega), portRegister_operand]
      rfl
    · intro ha hr
      rw [hwrite (by omega) ha, writeRegister_ignored hr]

/-- Settles O7: such an access is not admitted, whatever its offset in the window. -/
theorem inadmissibleAccessSetsBusFault : Obligations.InadmissibleAccessSetsBusFault :=
  fun s rest _ _ v h ha =>
    ⟨fun hin => (step_of_inbox hin).trans (hostWrite_inadmissible (s := { s with inbox := rest }) h ha v),
      fun hin => (step_of_inbox hin).trans (hostRead_inadmissible (s := { s with inbox := rest }) h ha)⟩

/-! ## Every operation goes on (R232) -/

theorem hostCommand_next (checks : List (Bool × ResultCode)) (after : State) (results : List Word) (s : State) :
    ∃ t, hostCommand checks after results s = .next t := by
  obtain ⟨_, h⟩ | ⟨_, _, h⟩ := hostCommand_cases checks after results s <;> exact ⟨_, h⟩

theorem readSlotCommand_next (k : Nat) (words : Slot → List Word) (s : State) :
    ∃ t, readSlotCommand k words s = .next t := by
  unfold readSlotCommand
  split <;> exact hostCommand_next ..

theorem execSeqStep_next (s : State) : ∃ t, execSeqStep s = .next t := by
  unfold execSeqStep
  split
  case h_3 | h_5 | h_6 => split <;> exact ⟨_, rfl⟩
  all_goals exact ⟨_, rfl⟩

/-- No operation stops the block: an operation on a slot, an event and a step of the sequencer answer on every path,
and a host command ends in `hostCommand`. -/
theorem exec_next (i : Instr) (s : State) : ∃ t, exec i s = .next t := by
  cases i <;> simp only [exec]
  case zcdDetect | accReset | accAccumulate | accLoad | phaseSample | hardReset | measurePhase | angleEnter |
      angleSample | ledDecay | energyRoute =>
    exact ⟨_, rfl⟩
  case seqStep => exact execSeqStep_next s
  case evAdc => unfold execEvAdc; split_ifs <;> exact ⟨_, rfl⟩
  case evTmr => unfold execEvTmr; split <;> exact ⟨_, rfl⟩
  case evRtc => unfold execEvRtc; dsimp only; split_ifs <;> exact ⟨_, rfl⟩
  case init => unfold execInit; split <;> exact hostCommand_next ..
  case phaseLoadCal => unfold execPhaseLoadCal; split <;> exact hostCommand_next ..
  case phaseCalibrate => unfold execPhaseCalibrate; split <;> exact hostCommand_next ..
  case globalCalibrate => unfold execGlobalCalibrate; split <;> exact hostCommand_next ..
  case energySet => unfold execEnergySet; split <;> exact hostCommand_next ..
  case measReady => unfold execMeasReady; split <;> exact hostCommand_next ..
  case deinit | start | stop | phaseRegister | energyGet | consGet | seqStatus | statGet => exact hostCommand_next ..
  case statusGet | vrmsGet | irmsGet | flineGet | pGet | qGet | sGet | measGet | phaseCalGet =>
    exact readSlotCommand_next ..

/-! ## What stops a step (R60, R236) -/

theorem continues_of_next {r : StepResult} (h : ∃ t, r = .next t) : continues r = true := by
  obtain ⟨t, rfl⟩ := h
  rfl

theorem runWord_next (w : Word) (s : State) : ∃ t, runWord w s = .next t := by
  unfold runWord
  split
  · exact exec_next ..
  · exact ⟨_, rfl⟩

theorem writeRegister_next (r : PortRegister) (v : Word) (s : State) : ∃ t, writeRegister r v s = .next t := by
  cases r with
  | opw =>
    simp only [writeRegister, issueCommand]
    split
    · exact runWord_next ..
    · exact ⟨_, rfl⟩
  | rc | operand | response | reserved => exact ⟨_, rfl⟩

theorem hostWrite_stops_iff (addr width : Nat) (v : Word) (s : State) :
    continues (hostWrite addr width v s) = false ↔ windowOffset s.par addr = none := by
  unfold hostWrite
  rcases windowOffset s.par addr with _ | off
  · exact ⟨fun _ => rfl, fun _ => rfl⟩
  · dsimp only
    split
    · simp [continues_of_next (writeRegister_next ..)]
    · simp [continues]

theorem hostRead_stops_iff (addr width : Nat) (s : State) :
    continues (hostRead addr width s) = false ↔ windowOffset s.par addr = none := by
  unfold hostRead
  rcases windowOffset s.par addr with _ | off
  · exact ⟨fun _ => rfl, fun _ => rfl⟩
  · dsimp only
    split <;> simp [continues]

/-- A stimulus stops the machine exactly if it is a host access outside the window. -/
theorem takeStimulus_stops_iff (x : Stimulus) (s : State) :
    continues (takeStimulus x s) = false ↔
      ∃ addr width, ((∃ v, x = .hostWrite addr width v) ∨ x = .hostRead addr width) ∧
        windowOffset s.par addr = none := by
  have goes {r : StepResult} (h : ∃ t, r = .next t) : ¬continues r = false := by simp [continues_of_next h]
  cases x with
  | hostWrite addr width v =>
    refine (hostWrite_stops_iff ..).trans ⟨fun h => ⟨addr, width, .inl ⟨v, rfl⟩, h⟩, ?_⟩
    rintro ⟨_, _, ⟨_, hx⟩ | hx, h⟩ <;> cases hx
    exact h
  | hostRead addr width =>
    refine (hostRead_stops_iff ..).trans ⟨fun h => ⟨addr, width, .inr rfl, h⟩, ?_⟩
    rintro ⟨_, _, ⟨_, hx⟩ | hx, h⟩ <;> cases hx
    exact h
  | adc smp => exact iff_of_false (goes (exec_next .evAdc { s with smp := smp })) (by simp)
  | tmr => exact iff_of_false (goes (exec_next .evTmr s)) (by simp)
  | rtc => exact iff_of_false (goes (exec_next .evRtc s)) (by simp)
  | seq => exact iff_of_false (goes (exec_next .seqStep s)) (by simp)
  | op w => exact iff_of_false (goes (runWord_next w s)) (by simp)
  | powerOn => exact iff_of_false (goes ⟨_, rfl⟩) (by simp)

/-- Settles O8: the only stimuli that can stop are those of the host port, and they stop outside its window. -/
theorem onlyAccessOutsideWindowStops : Obligations.OnlyAccessOutsideWindowStops := by
  refine ⟨exec_next, fun s => ?_⟩
  rcases hin : s.inbox with _ | ⟨x, rest⟩
  · have hstep : step s = .next s := by simp only [step, takeNext, hin]
    simp [hstep, continues]
  · rw [step_of_inbox hin, takeStimulus_stops_iff]
    constructor
    · rintro ⟨addr, width, hx, hout⟩
      exact ⟨addr, width, rest, hx.imp (fun ⟨v, h⟩ => ⟨v, by rw [h]⟩) (fun h => by rw [h]),
        (windowOffset_eq_none ..).1 hout⟩
    · rintro ⟨addr, width, _, hx, hout⟩
      exact ⟨addr, width, hx.imp (fun ⟨v, h⟩ => ⟨v, (List.cons.inj h).1⟩) (fun h => (List.cons.inj h).1),
        (windowOffset_eq_none ..).2 hout⟩

end Sys2Proof.Machine
end

section
/-! The commands that only read (R68): what they answer does not depend on what they change. -/

namespace Sys2Proof.Machine

theorem readSlotCommand_eq (k : Nat) (words : Slot → List Word) (s : State) :
    readSlotCommand k words s =
      hostCommand (if s.ph[k]?.isSome then [] else [(true, .errPhase)]) s ((s.ph[k]?.map words).getD []) s := by
  unfold readSlotCommand
  split <;> simp [*]

/-- A command that only reads is a host command whose effect is none, and whose checks and results depend neither on
`RC` nor on the response registers. -/
theorem exec_readsOnly {i : Instr} (hi : readsOnly i = true) :
    ∃ (checks : State → List (Bool × ResultCode)) (results : State → List Word),
      (∀ s, exec i s = hostCommand (checks s) s (results s) s) ∧
      ∀ s rc R, checks { s with rc := rc, R := R } = checks s ∧ results { s with rc := rc, R := R } = results s := by
  cases i
  case energyGet => exact ⟨fun _ => [], fun s => s.ledger.words s.num, fun _ => rfl, fun _ _ _ => ⟨rfl, rfl⟩⟩
  case consGet => exact ⟨_, _, fun _ => rfl, fun _ _ _ => ⟨rfl, rfl⟩⟩
  case seqStatus =>
    exact ⟨fun _ => [], fun s => [natWord s.seq.state.code, natWord s.seq.result.code, natWord s.seq.target],
      fun _ => rfl, fun _ _ _ => ⟨rfl, rfl⟩⟩
  case statGet =>
    exact ⟨fun _ => [], fun s => [s.ctrlWord, natWord s.nPhases, s.fault.word], fun _ => rfl, fun _ _ _ => ⟨rfl, rfl⟩⟩
  case statusGet | vrmsGet | irmsGet | flineGet | pGet | qGet | sGet | measGet | phaseCalGet =>
    exact ⟨_, _, fun _ => readSlotCommand_eq .., fun _ _ _ => ⟨rfl, rfl⟩⟩
  all_goals cases hi

/-- Settles O40: the second command fails the same check, or writes the same results again. -/
theorem readCommandsAreIdempotent : Obligations.ReadCommandsAreIdempotent := by
  intro i s t hi h
  obtain ⟨checks, results, hexec, hsame⟩ := exec_readsOnly hi
  rw [hexec] at h
  obtain ⟨hc, hr⟩ | ⟨rc, hc, hr⟩ := hostCommand_cases (checks s) s (results s) s <;> rw [hr] at h <;> cases h
  · obtain ⟨hchecks, hresults⟩ := hsame s .ok (writeFrom 0 (results s) s.R)
    refine ⟨rfl, ?_⟩
    rw [hexec, hostCommand_passes (by rw [State.respond, hchecks, hc])]
    simp only [State.respond, hresults, writeFrom_writeFrom]
  · obtain ⟨hchecks, _⟩ := hsame s rc s.R
    exact ⟨rfl, (hexec _).trans (hostCommand_fails (by rw [hchecks, hc]) ..)⟩

end Sys2Proof.Machine
end

section
/-! EV_ADC outside the fs-calibration window: phase processing, then the energy (R110, R190). -/

namespace Sys2Proof.Machine

/-- The triple in the workspace, ANGLE_SAMPLE or PHASE_SAMPLE leaves of a slot what EV_ADC leaves of it, and records
the same overflow. -/
theorem exec_sample_eq_takeSample {s : State} {k : Nat} {p : Slot} (hp : s.ph[k]? = some p) (tr : Triple) :
    exec (if p.sig.calAngle then .angleSample k else .phaseSample k)
        { s with ph := s.ph.set k { p with ws := tr }, fault := ⟨false, false⟩ } =
      .next { s with
        ph := s.ph.set k (p.takeSample s.num s.par s.cfg.updateInterval tr).val
        fault := ⟨(p.takeSample s.num s.par s.cfg.updateInterval tr).ovf, false⟩ } := by
  have hslot : (s.ph.set k { p with ws := tr })[k]? = some { p with ws := tr } := List.getElem?_set_self (lt_of_slot hp)
  rcases hc : p.sig.calAngle
  · simp only [Bool.false_eq_true, if_false, exec, execPhaseSample]
    rw [updateSlot_some hslot, takeSample_normal hc]
    simp [hc]
  · simp only [if_true, exec, execAngleSample]
    rw [updateSlot_some hslot, takeSample_angle hc]
    simp [hc]

theorem sampledSlots_getElem? {s : State} {k : Nat} {p : Slot} {tr : Triple} (hp : s.ph[k]? = some p)
    (ht : s.smp[k]? = some tr) : s.sampledSlots[k]? = some (p.takeSample s.num s.par s.cfg.updateInterval tr) :=
  List.getElem?_zipWith_eq_some.2 ⟨p, tr, hp, ht, rfl⟩

theorem exec_evAdc_outside {s : State} (he : s.adcEnabled = true) (hr : s.cfs.running = false) :
    exec .evAdc s = if s.anyAngle then .next s.processPhases else .next s.processPhases.ledDecay.energyRoute := by
  simp only [exec, execEvAdc, if_pos he, hr, Bool.false_eq_true, if_false]

theorem anyAngle_iff (s : State) : s.anyAngle = true ↔ ∃ p ∈ s.ph, p.sig.calAngle = true := by simp [State.anyAngle]

theorem anyAngle_eq_false (s : State) : s.anyAngle = false ↔ ∀ p ∈ s.ph, p.sig.calAngle = false := by
  simp [State.anyAngle]

/-- Settles O27: the phase table and the overflow are those of the phase processing, slot by slot what the slot's
micro-operation answers. -/
theorem adcProcessesPhasesThenEnergy : Obligations.AdcProcessesPhasesThenEnergy := by
  intro s he hr
  refine ⟨s.sampledSlots.map Stored.val, s.sampledSlots.any Stored.ovf, ?_, fun k p tr hp ht => ?_, fun ho => ?_,
    fun ha => ?_, fun ha => ?_⟩
  · simp [State.sampledSlots, (of_adcEnabled he).2.1]
  · have hk := sampledSlots_getElem? hp ht
    refine ⟨_, exec_sample_eq_takeSample hp tr, ?_, fun ho => List.any_eq_true.2 ⟨_, List.mem_of_getElem? hk, ho⟩⟩
    rw [List.getElem?_map, hk, List.getElem?_set_self (lt_of_slot hp)]
    rfl
  · obtain ⟨r, hmem, hovf⟩ := List.any_eq_true.1 ho
    obtain ⟨k, hk⟩ := List.getElem?_of_mem hmem
    obtain ⟨p, tr, hp, ht, rfl⟩ := List.getElem?_zipWith_eq_some.1 hk
    exact ⟨k, p, tr, _, hp, ht, exec_sample_eq_takeSample hp tr, hovf⟩
  · rw [exec_evAdc_outside he hr, if_pos ((anyAngle_iff s).2 ha)]
    rfl
  · rw [exec_evAdc_outside he hr, (anyAngle_eq_false s).2 ha]
    exact ⟨_, _, rfl, rfl, rfl⟩

end Sys2Proof.Machine
end

section
/-! The operation words (R80 to R86): the decoder says exactly what the three fields of a word say, so that it and the
encoder are inverse to each other, and every word of the host class is a command or sets a reserved field. -/

namespace Sys2Proof

theorem bareForm_eq_ok_iff {w : Word} {i j : Instr} :
    bareForm w i = .ok j ↔ (phField w = 0 ∧ immField w = 0) ∧ i = j := by
  unfold bareForm
  split <;> simp [*]

theorem phaseForm_eq_ok_iff {w : Word} {f : Nat → Instr} {i : Instr} :
    phaseForm w f = .ok i ↔ immField w = 0 ∧ f (phField w) = i := by
  unfold phaseForm
  split <;> simp [*]

/-- A word decodes to the operation whose opcode, phase slot and immediate stand in its three fields, and to no other:
the row of R84 for that opcode is of the bare form or of the phase form, PHASE_CALIBRATE's apart. -/
theorem decode_eq_ok_iff {w : Word} {i : Instr} :
    decode w = .ok i ↔ opField w = i.opcode ∧ phField w = i.phase ∧ immField w = i.imm := by
  rw [← and_iff_right_of_imp fun h => (opcode_of_decode h).symm, and_congr_right_iff]
  intro hop
  rw [decode, hop]
  cases i
  case phaseCalibrate => simp [Instr.opcode, Instr.phase, Instr.imm]
  case ledDecay | energyRoute | seqStep | evAdc | evTmr | evRtc | init | deinit | start | stop | phaseRegister |
      globalCalibrate | energySet | energyGet | consGet | seqStatus | statGet =>
    exact bareForm_eq_ok_iff.trans (and_iff_left rfl)
  all_goals exact phaseForm_eq_ok_iff.trans (by simp [Instr.phase, Instr.imm, and_comm])

theorem wellFormed_iff (i : Instr) : i.wellFormed = true ↔ i.phase < 2 ^ 8 ∧ i.imm < 2 ^ 16 := by
  simp [Instr.wellFormed, phaseFits, immFits]

/-- Settles O1: the three fields of an encoded operation are its own. -/
theorem decodeOfEncodeIsTheOperation : Obligations.DecodeOfEncodeIsTheOperation :=
  fun i hwf => decode_eq_ok_iff.2 (Laws.encodedFields_of i hwf)

/-- Settles O2: a word is its three fields, and those are the operation's. -/
theorem encodeOfDecodeIsTheWord : Obligations.EncodeOfDecodeIsTheWord := by
  intro w i h
  obtain ⟨hop, hph, himm⟩ := decode_eq_ok_iff.1 h
  refine ⟨(wellFormed_iff i).2 (phase_imm_of_decode h), ?_⟩
  rw [encode, ← hop, ← hph, ← himm, ← word_eq_fields]

end Sys2Proof

namespace Sys2Proof.Machine

/-- A host row of R84 with both columns 0 (R85 step 2). -/
theorem bareForm_of_host {w : Word} (h : opField w ∈ hostOpcodesWithoutPhase) (i : Instr) :
    bareForm w i = if reservedFieldSet w then .error .reservedField else .ok i := by
  have h26 : opField w ≠ 0x26 := fun h' => absurd (h' ▸ h) (by decide)
  have hset : reservedFieldSet w = true ↔ ¬ (phField w = 0 ∧ immField w = 0) := by
    simp [reservedFieldSet, h, h26, imp_iff_not_or]
  simp only [bareForm, hset, ite_not]

/-- A host row of R84 with a phase slot and column IMM 0 (R85 step 2). -/
theorem phaseForm_of_host {w : Word} (h : opField w ∉ hostOpcodesWithoutPhase) (h26 : opField w ≠ 0x26)
    (f : Nat → Instr) :
    phaseForm w f = if reservedFieldSet w then .error .reservedField else .ok (f (phField w)) := by
  have hset : reservedFieldSet w = true ↔ ¬ immField w = 0 := by simp [reservedFieldSet, h, h26]
  simp only [phaseForm, hset, ite_not]

theorem reservedFieldSet_of_phaseCalibrate {w : Word} (h : opField w = 0x26) : reservedFieldSet w = false := by
  simp [reservedFieldSet, h, hostOpcodesWithoutPhase]

/-- The host rows of R84 whose column PH is 0. -/
theorem decode_eq_bareForm {w : Word} (h : opField w ∈ hostOpcodesWithoutPhase) : ∃ i, decode w = bareForm w i := by
  unfold decode
  generalize opField w = op at h
  fin_cases h <;> exact ⟨_, rfl⟩

/-- The host rows of R84 with a phase slot, PHASE_CALIBRATE's apart. -/
theorem decode_eq_phaseForm {w : Word} (hlo : 0x20 ≤ opField w) (hhi : opField w ≤ 0x36) (h26 : opField w ≠ 0x26)
    (h : opField w ∉ hostOpcodesWithoutPhase) : ∃ f, decode w = phaseForm w f := by
  unfold decode
  generalize opField w = op at *
  have hrows : op ∈ [0x25, 0x2A, 0x2B, 0x2C, 0x2D, 0x2E, 0x2F, 0x30, 0x31, 0x33, 0x34] := by
    simp [hostOpcodesWithoutPhase] at h ⊢
    omega
  clear hlo hhi h26 h
  fin_cases hrows <;> exact ⟨_, rfl⟩

/-- R85: a word of the host class is refused for a reserved field that is set, and for nothing else. -/
theorem decode_of_hostOpcode {w : Word} (hlo : 0x20 ≤ opField w) (hhi : opField w ≤ 0x36) :
    ∃ i, decode w = if reservedFieldSet w then .error .reservedField else .ok i := by
  by_cases h26 : opField w = 0x26
  · refine ⟨.phaseCalibrate (phField w) (immField w), ?_⟩
    rw [reservedFieldSet_of_phaseCalibrate h26, decode, h26]
    rfl
  · by_cases h : opField w ∈ hostOpcodesWithoutPhase
    · obtain ⟨i, hi⟩ := decode_eq_bareForm h
      exact ⟨i, hi.trans (bareForm_of_host h i)⟩
    · obtain ⟨f, hf⟩ := decode_eq_phaseForm hlo hhi h26 h
      exact ⟨f (phField w), hf.trans (phaseForm_of_host h h26 f)⟩

theorem isHostOpcode_iff (op : Nat) : isHostOpcode op = true ↔ 0x20 ≤ op ∧ op ≤ 0x36 := by simp [isHostOpcode]

theorem issueCommand_of_not_hostOpcode {w : Word} (h : opField w < 0x20 ∨ 0x36 < opField w) (s : State) :
    issueCommand w s = .next { s with rc := .errOpcode } :=
  if_neg (by rw [isHostOpcode_iff]; omega)

theorem issueCommand_of_reservedFieldSet {w : Word} (hlo : 0x20 ≤ opField w) (hhi : opField w ≤ 0x36)
    (h : reservedFieldSet w = true) (s : State) : issueCommand w s = .next { s with rc := .errReserved } := by
  obtain ⟨i, hd⟩ := decode_of_hostOpcode hlo hhi
  rw [if_pos h] at hd
  rw [issueCommand, if_pos ((isHostOpcode_iff _).2 ⟨hlo, hhi⟩), runWord, hd]
  rfl

/-- Settles O5: the write reaches `issueCommand`, whose three cases are those of R85. -/
theorem hostWriteOfOpwDecodes : Obligations.HostWriteOfOpwDecodes := by
  intro s rest w h
  have hstep : step s = issueCommand w { s with inbox := rest } := by
    rw [step_of_inbox h]
    exact hostWrite_opw w { s with inbox := rest }
  rw [hstep]
  refine ⟨fun hout => issueCommand_of_not_hostOpcode hout _,
    fun ⟨hlo, hhi⟩ hset => issueCommand_of_reservedFieldSet hlo hhi hset _, fun ⟨hlo, hhi⟩ hset => ?_⟩
  obtain ⟨i, hd⟩ := decode_of_hostOpcode hlo hhi
  rw [if_neg (by simp [hset])] at hd
  have hclass : i.opClass = .host := opClass_of_hostOpcode ((isHostOpcode_iff _).2 ⟨hlo, hhi⟩) hd
  obtain ⟨hop, hph, himm⟩ := decode_eq_ok_iff.1 hd
  exact ⟨i, hclass, hop.symm, hph.symm, himm.symm, issueCommand_of_decode hd hclass _⟩

end Sys2Proof.Machine
end

section
/-! The codec of the default `NUM`, binary32 (R9, R81, log entry 7), and the examples of R89. -/

namespace Sys2Proof

theorem Num32.isFinite_eq_false_iff (x : Num32) : x.isFinite = false ↔ x.bits.extractLsb' 23 8 = 0xFF#8 := by
  rw [← BitVec.toNat_inj]
  simp [isFinite, expField]

theorem Num32.dec_eq_some_iff {w : Word} {x : Num32} : dec w = some x ↔ x.isFinite = true ∧ x.bits = w := by
  cases x
  simp only [dec, Option.ite_none_right_eq_some, Option.some.injEq, Num32.mk.injEq]
  exact ⟨fun ⟨hfin, hw⟩ => ⟨hw ▸ hfin, hw.symm⟩, fun ⟨hfin, hw⟩ => ⟨hw ▸ hfin, hw.symm⟩⟩

theorem Num32.dec_eq_none_iff (w : Word) : dec w = none ↔ Num32.isFinite ⟨w⟩ = false := by
  simp [dec]

/-- A finite value is no NaN, so its word is its encoding. -/
theorem Num32.enc_of_isFinite {x : Num32} (h : x.isFinite = true) : x.enc = x.bits := by
  have hexp : x.expField ≠ 255 := by simpa [isFinite] using h
  simp [enc, isNaN, hexp]

/-- Settles O11: the values the decoder delivers are the finite ones, each under its own word. -/
theorem numCodecRejectsNonFiniteWords : Obligations.NumCodecRejectsNonFiniteWords := by
  refine ⟨fun w => ?_, fun w x h => ?_⟩
  · rw [NumStructure.binary32_dec, Option.map_eq_none_iff, Num32.dec_eq_none_iff, Num32.isFinite_eq_false_iff]
  · rw [NumStructure.binary32_dec] at h
    obtain ⟨y, hy, rfl⟩ := Option.map_eq_some_iff.1 h
    obtain ⟨hfin, hbits⟩ := Num32.dec_eq_some_iff.1 hy
    rw [NumStructure.binary32_enc, Num32.toNum_toBinary32, Num32.enc_of_isFinite hfin, hbits]

end Sys2Proof

namespace Sys2Proof.Machine

/-- Settles O3: the words are evaluated, and the two illegal ones fall under the two refusals of R85. -/
theorem encodingExamples : Obligations.EncodingExamples := by
  refine ⟨by decide, by decide, by decide, by decide, by decide, by decide, by decide, ?_, ?_, by decide⟩
  · exact issueCommand_of_reservedFieldSet (by decide) (by decide) (by decide)
  · exact issueCommand_of_not_hostOpcode (by decide)

end Sys2Proof.Machine
end

section
/-! The zero-cross detector (R101, R102): what decides a crossing, ZCD_DETECT case by case, and the invariant by which
the debounce term is redundant. -/

namespace Sys2Proof.Machine

theorem ZeroCross.crosses_iff (v : Int) (z : ZeroCross) :
    z.crosses v = true ↔ z.debounce = false ∧ z.last ≤ 0 ∧ 0 < v := by
  simp [crosses, and_assoc]

theorem ZeroCross.crosses_eq_false_iff (v : Int) (z : ZeroCross) :
    z.crosses v = false ↔ z.debounce = true ∨ 0 < z.last ∨ v ≤ 0 := by
  rw [← Bool.not_eq_true, crosses_iff, not_and_or, not_and_or, Bool.not_eq_false, not_le, not_lt]

/-! ## ZCD_DETECT (R101) -/

section
variable {s : State} {k : Nat} {p : Slot} {z : ZeroCross}

/-- ZCD_DETECT puts what the detector delivers into the tracker. -/
theorem exec_zcdDetect {ovf : Bool} (hp : s.ph[k]? = some p)
    (hd : detectCrossing s.par.cycW p.ws.v p.zc = ⟨z, ovf⟩) :
    exec (.zcdDetect k) s =
      .next { s with
        ph := s.ph.set k { p with zc := z }
        fault := { s.fault with ovf := s.fault.ovf || ovf } } := by
  simp only [exec, execZcdDetect, updateSlot_some hp, hd]

theorem exec_zcdDetect_fits (hp : s.ph[k]? = some p) (hd : detectCrossing s.par.cycW p.ws.v p.zc = ⟨z, false⟩) :
    exec (.zcdDetect k) s = .next { s with ph := s.ph.set k { p with zc := z } } := by
  rw [exec_zcdDetect hp hd, Bool.or_false]

theorem exec_zcdDetect_overflows (hp : s.ph[k]? = some p) (hd : detectCrossing s.par.cycW p.ws.v p.zc = ⟨z, true⟩) :
    exec (.zcdDetect k) s =
      .next { s with ph := s.ph.set k { p with zc := z }, fault := { s.fault with ovf := true } } := by
  rw [exec_zcdDetect hp hd, Bool.or_true]

end

/-- Settles O12: a counted crossing stores the incremented counter, in its width or past it; a first crossing and a
sample that is no crossing store no sum. -/
theorem zcdDetectUpdatesTracker : Obligations.ZcdDetectUpdatesTracker := by
  intro k s p hp
  refine ⟨fun ⟨hdeb, hlast, hv, hs, hc⟩ => ?counted, fun ⟨hdeb, hlast, hv, hs, hc⟩ => ?wrapped,
    fun ⟨hdeb, hlast, hv, hs⟩ => ?first, fun hno => ?none⟩
  case counted =>
    have hcross := (ZeroCross.crosses_iff _ _).2 ⟨hdeb, hlast, hv⟩
    exact exec_zcdDetect_fits hp (by rw [detectCrossing_counted hcross hs, storeUnsigned_succ_of_lt hc])
  case wrapped =>
    have hcross := (ZeroCross.crosses_iff _ _).2 ⟨hdeb, hlast, hv⟩
    exact exec_zcdDetect_overflows hp (by rw [detectCrossing_counted hcross hs, storeUnsigned_succ_of_le hc])
  case first =>
    have hcross := (ZeroCross.crosses_iff _ _).2 ⟨hdeb, hlast, hv⟩
    exact exec_zcdDetect_fits hp (detectCrossing_first hcross hs)
  case none => exact exec_zcdDetect_fits hp (detectCrossing_none ((ZeroCross.crosses_eq_false_iff _ _).2 hno))

/-! ## The debounce flag (R102) -/

/-- A debounce flag that is set stands after a positive sample. -/
def ZeroCross.DebouncePositive (z : ZeroCross) : Prop := z.debounce = true → 0 < z.last

/-- A flag that tells whether the sample just stored was a crossing is set after a positive sample only. -/
theorem debouncePositive_of_crosses {z z' : ZeroCross} {v : Int} (hlast : z'.last = v)
    (hdeb : z'.debounce = z.crosses v) : z'.DebouncePositive := fun h => hlast ▸ crosses_pos (hdeb ▸ h)

theorem detectCrossing_debouncePositive (cycW : Nat) (v : Int) (z : ZeroCross) :
    (detectCrossing cycW v z).val.DebouncePositive := by
  obtain ⟨hlast, hdeb, _⟩ := detectCrossing_val cycW v z
  exact debouncePositive_of_crosses hlast hdeb

theorem phaseSample_debouncePositive (par : Params) (ui : Nat) (p : Slot) :
    (p.phaseSample par ui).val.zc.DebouncePositive := by
  obtain ⟨_, _, _, _, _, h, hlast, hdeb, _⟩ := phaseSample_frame par ui p
  rw [h]
  exact debouncePositive_of_crosses hlast hdeb

/-- Hard reset and registration clear the flag. -/
theorem blank_debouncePositive (coef : Coef) (sig : Signals) (ang : Angle) :
    (Slot.blank coef sig ang).zc.DebouncePositive := nofun

theorem angleSample_debouncePositive {p : Slot} (hp : p.zc.DebouncePositive) (N : NumStructure) (ui : Nat) :
    (p.angleSample N ui).val.zc.DebouncePositive := by
  obtain ⟨_, _, _, h, _⟩ := angleSample_frame N ui p
  rwa [h]

theorem takeSample_debouncePositive {p : Slot} (hp : p.zc.DebouncePositive) (N : NumStructure) (par : Params) (ui : Nat)
    (t : Triple) : (p.takeSample N par ui t).val.zc.DebouncePositive := by
  rcases hc : p.sig.calAngle
  · rw [takeSample_normal hc]
    exact phaseSample_debouncePositive par ui _
  · rw [takeSample_angle hc]
    exact angleSample_debouncePositive (p := { p with ws := t }) hp N ui

theorem slotChange_debouncePositive {s : State} {i : Instr} {k : Nat} {p q : Slot} (hp : p.zc.DebouncePositive)
    (h : SlotChange s i k p q) : q.zc.DebouncePositive := by
  cases h with
  | kept | accReset | accumulated | accLoaded | entered | coefLoaded | taken => exact hp
  | detected => exact detectCrossing_debouncePositive _ _ _
  | sampled => exact phaseSample_debouncePositive _ _ _
  | angleSampled => exact angleSample_debouncePositive hp _ _
  | adc => exact takeSample_debouncePositive hp _ _ _ _
  | measured =>
    obtain ⟨_, _, _, h, _⟩ := measure_frame s.num s.cfg p
    rwa [h]
  | reset | calibrating | secondStage | finished => exact blank_debouncePositive _ _ _

/-- After a sample that was not positive the flag is clear, so the comparisons alone decide. -/
theorem ZeroCross.DebouncePositive.crosses_iff {z : ZeroCross} (h : z.DebouncePositive) (v : Int) :
    z.crosses v = true ↔ z.last ≤ 0 ∧ 0 < v := by
  have hclear (hlast : z.last ≤ 0) : z.debounce = false := Bool.eq_false_of_not_eq_true fun hd => (h hd).not_ge hlast
  rw [ZeroCross.crosses_iff]
  exact ⟨And.right, fun hv => ⟨hclear hv.1, hv⟩⟩

/-- Settles O58: the flag is written by the detector, which sets it on a positive sample and stores that sample, and by
hard reset and registration, which clear it. -/
theorem debounceNeverFiltersACrossing : Obligations.DebounceNeverFiltersACrossing :=
  ⟨fun _ _ =>
    step_invariant (P := State.DebouncePositive) (fun _ _ _ _ _ _ _ => id) (fun _ _ => List.forall_mem_nil _)
      fun _ _ _ hs he =>
        slotsFrom_forall (P := fun p => p.zc.DebouncePositive) (blank_debouncePositive _ _ _)
          (fun _ _ _ => slotChange_debouncePositive) hs (exec_slots he),
    fun _ p v hs hp => ZeroCross.DebouncePositive.crosses_iff (hs p hp) v⟩

end Sys2Proof.Machine
end

section
/-! The phase window (R111 to R116): each micro-operation of the window on a registered slot, and PHASE_SAMPLE as their
composition. -/

namespace Sys2Proof.Machine

/-! ## Accumulation in the widths of the fields (R112) -/

theorem storeSigned_ovf_eq (w : Nat) (v : Int) : (storeSigned w v).ovf = !fitsSigned w v := by
  rcases hf : fitsSigned w v
  · exact storeSigned_ovf hf
  · rw [storeSigned_of_fits hf]; rfl

theorem storeUnsigned_succ_ovf_iff (w n : Nat) : (storeUnsigned w ((n : Int) + 1)).ovf = true ↔ 2 ^ w ≤ n + 1 := by
  rcases Nat.lt_or_ge (n + 1) (2 ^ w) with hlt | hle
  · simp [storeUnsigned_succ_of_lt hlt, hlt]
  · simp [storeUnsigned_succ_of_le hle, hle]

/-- An accumulation overflows exactly if one of the five exact sums does not fit its field. -/
theorem accumulate_ovf_iff (par : Params) (t : Triple) (a : Accum) :
    (a.accumulate par t).ovf = true ↔
      fitsSigned par.accW (a.vacc + t.v * t.v) = false ∨ fitsSigned par.accW (a.iacc + t.i * t.i) = false ∨
        fitsSigned par.accW (a.pacc + t.v * t.i) = false ∨ fitsSigned par.accW (a.qacc + t.v90 * t.i) = false ∨
        2 ^ par.cntW ≤ a.n + 1 := by
  simp only [Accum.accumulate, Bool.or_eq_true, storeSigned_ovf_eq, Bool.not_eq_true', storeUnsigned_succ_ovf_iff,
    or_assoc]

theorem accumulate_ovf_eq_false_iff (par : Params) (t : Triple) (a : Accum) :
    (a.accumulate par t).ovf = false ↔
      fitsSigned par.accW (a.vacc + t.v * t.v) = true ∧ fitsSigned par.accW (a.iacc + t.i * t.i) = true ∧
        fitsSigned par.accW (a.pacc + t.v * t.i) = true ∧ fitsSigned par.accW (a.qacc + t.v90 * t.i) = true ∧
        a.n + 1 < 2 ^ par.cntW := by
  rw [← Bool.not_eq_true, accumulate_ovf_iff]
  simp only [not_or, Bool.not_eq_false, not_le]

/-! ## Writing a slot -/

theorem setSlot_setSlot (s : State) (k : Nat) (p q : Slot) : (s.setSlot k p).setSlot k q = s.setSlot k q := by
  simp only [State.setSlot, List.set_set]

/-- A slot and the overflow bit are written independently. -/
theorem noteOvf_setSlot (s : State) (k : Nat) (q : Slot) (b : Bool) :
    (s.noteOvf b).setSlot k q = (s.setSlot k q).noteOvf b := rfl

theorem noteOvf_noteOvf (s : State) (b c : Bool) : (s.noteOvf b).noteOvf c = s.noteOvf (b || c) := by
  simp only [State.noteOvf, Bool.or_assoc]

theorem noteOvf_false (s : State) : s.noteOvf false = s := by
  simp only [State.noteOvf, Bool.or_false]

theorem noteOvf_true (s : State) : s.noteOvf true = { s with fault := { s.fault with ovf := true } } := by
  simp only [State.noteOvf, Bool.or_true]

/-- A registered slot that has been written holds what was written. -/
theorem setSlot_slot {s : State} {k : Nat} {p : Slot} (hp : s.ph[k]? = some p) (q : Slot) :
    (s.setSlot k q).ph[k]? = some q :=
  List.getElem?_set_self (lt_of_slot hp)

theorem setSlot_noteOvf_slot {s : State} {k : Nat} {p : Slot} (hp : s.ph[k]? = some p) (q : Slot) (b : Bool) :
    ((s.setSlot k q).noteOvf b).ph[k]? = some q :=
  setSlot_slot hp q

/-! ## The micro-operations on a registered slot -/

section
variable {s : State} {k : Nat} {p : Slot}

/-- An operation on a registered slot writes the slot and notes the overflow. -/
theorem updateSlot_eq_setSlot (hp : s.ph[k]? = some p) (f : Slot → Stored Slot) :
    s.updateSlot k f = (s.setSlot k (f p).val).noteOvf (f p).ovf := updateSlot_some hp f

theorem exec_accReset (hp : s.ph[k]? = some p) :
    exec (.accReset k) s = .next (s.setSlot k { p with live := p.ws.contribution }) := by
  simp only [exec, execAccReset, updateSlot_eq_setSlot hp, noteOvf_false, Slot.accReset]

theorem exec_accLoad (hp : s.ph[k]? = some p) :
    exec (.accLoad k) s = .next (s.setSlot k { p with snap := p.live }) := by
  simp only [exec, execAccLoad, updateSlot_eq_setSlot hp, noteOvf_false, Slot.accLoad]

theorem exec_accAccumulate (hp : s.ph[k]? = some p) {a : Stored Accum} (ha : p.live.accumulate s.par p.ws = a) :
    exec (.accAccumulate k) s = .next ((s.setSlot k { p with live := a.val }).noteOvf a.ovf) := by
  simp only [exec, execAccAccumulate, updateSlot_eq_setSlot hp, Slot.accAccumulate, ha]

theorem exec_hardReset (hp : s.ph[k]? = some p) :
    exec (.hardReset k) s = .next (s.setSlot k (Slot.blank p.coef ⟨false, false, false⟩ p.ang)) := by
  simp only [exec, execHardReset, updateSlot_eq_setSlot hp, noteOvf_false, hardReset_eq]

theorem exec_phaseSample (hp : s.ph[k]? = some p) (hcal : p.sig.calAngle = false) {q : Slot} {ovf : Bool}
    (hq : p.phaseSample s.par s.cfg.updateInterval = ⟨q, ovf⟩) :
    exec (.phaseSample k) s = .next ((s.setSlot k q).noteOvf ovf) := by
  simp only [exec, execPhaseSample, updateSlot_eq_setSlot hp, hcal, Bool.false_eq_true, if_false, hq]

end

/-- Settles O13: the contribution of the sample and the live accumulators, written out. -/
theorem accResetAndAccLoad : Obligations.AccResetAndAccLoad :=
  fun _ _ _ hp => ⟨exec_accReset hp, exec_accLoad hp⟩

/-- Settles O14: whether the accumulation overflows decides between the exact sums and the stored residues. -/
theorem accAccumulateAddsCurrentSample : Obligations.AccAccumulateAddsCurrentSample := by
  refine fun k s p hp => ⟨fun hfits => ?_, fun hover => ?_⟩
  · have hovf := (accumulate_ovf_eq_false_iff s.par p.ws p.live).2 hfits
    rw [exec_accAccumulate hp rfl, accumulate_exact hovf, hovf, noteOvf_false]
    rfl
  · have hovf := (accumulate_ovf_iff s.par p.ws p.live).2 hover
    rw [exec_accAccumulate hp rfl, hovf, noteOvf_true]
    rfl

/-- Settles O16: hard reset leaves the blank slot of the same coefficients and angle state. -/
theorem hardResetClearsAllButCalibration : Obligations.HardResetClearsAllButCalibration :=
  fun _ _ _ => exec_hardReset

/-! ## PHASE_SAMPLE step by step (R114) -/

section
variable {par : Params} {ui : Nat} {p : Slot} {z : Stored ZeroCross} {a : Stored Accum}

theorem phaseSample_unsynced (hz : detectCrossing par.cycW p.ws.v p.zc = z) (hs : z.val.synced = false) :
    p.phaseSample par ui = ⟨{ p with zc := z.val }, z.ovf⟩ := by
  obtain ⟨_, h⟩ | ⟨hs', _⟩ | ⟨hs', _⟩ := phaseSample_cases par ui p z _ hz.symm rfl
  · exact h
  all_goals rw [hs] at hs'; cases hs'

theorem phaseSample_within (hz : detectCrossing par.cycW p.ws.v p.zc = z) (ha : p.live.accumulate par p.ws = a)
    (hs : z.val.synced = true) (hc : z.val.cyc < ui) :
    p.phaseSample par ui = ⟨{ p with zc := z.val, live := a.val }, z.ovf || a.ovf⟩ := by
  obtain ⟨hs', _⟩ | ⟨_, _, h⟩ | ⟨_, hc', _⟩ := phaseSample_cases par ui p z a hz.symm ha.symm
  · rw [hs] at hs'; cases hs'
  · exact h
  · exact absurd hc hc'.not_gt

theorem phaseSample_closes (hz : detectCrossing par.cycW p.ws.v p.zc = z) (ha : p.live.accumulate par p.ws = a)
    (hs : z.val.synced = true) (hc : ui ≤ z.val.cyc) :
    p.phaseSample par ui =
      ⟨{ p with
          zc := { z.val with cyc := 0 }
          live := p.ws.contribution
          snap := a.val
          sig := { p.sig with accReady := true } }, z.ovf || a.ovf⟩ := by
  obtain ⟨hs', _⟩ | ⟨_, hc', _⟩ | ⟨_, _, h⟩ := phaseSample_cases par ui p z a hz.symm ha.symm
  · rw [hs] at hs'; cases hs'
  · exact absurd hc hc'.not_ge
  · exact h

end

/-- Settles O15: each micro-operation writes the slot the one before it left, so that the last write is what
PHASE_SAMPLE stores, and the overflows of detector and accumulation add up. -/
theorem phaseSampleComposesItsMicroOperations : Obligations.PhaseSampleComposesItsMicroOperations := by
  intro k s p hp hcal
  obtain ⟨z, hz⟩ : ∃ z, detectCrossing s.par.cycW p.ws.v p.zc = z := ⟨_, rfl⟩
  obtain ⟨a, ha⟩ : ∃ a, p.live.accumulate s.par p.ws = a := ⟨_, rfl⟩
  have hdetected := setSlot_noteOvf_slot hp { p with zc := z.val } z.ovf
  refine ⟨_, _, exec_zcdDetect hp hz, hdetected, fun hs => ?unsynced, fun hs => ?synced⟩
  case unsynced => exact exec_phaseSample hp hcal (phaseSample_unsynced hz hs)
  case synced =>
    have haccumulated := setSlot_noteOvf_slot hdetected { p with zc := z.val, live := a.val } a.ovf
    refine ⟨_, _, exec_accAccumulate (p := { p with zc := z.val }) hdetected ha, haccumulated, fun hc => ?within,
      fun hc => ?closes⟩
    case within =>
      rw [exec_phaseSample hp hcal (phaseSample_within hz ha hs hc)]
      simp only [noteOvf_setSlot, setSlot_setSlot, noteOvf_noteOvf]
    case closes =>
      have hloaded := setSlot_slot haccumulated { p with zc := z.val, live := a.val, snap := a.val }
      have hready := setSlot_slot hloaded
        { p with zc := z.val, live := a.val, snap := a.val, sig := { p.sig with accReady := true } }
      have hreset := exec_accReset hready
      refine ⟨_, _, _, _, exec_accLoad haccumulated, hloaded, hreset, setSlot_slot hready _, ?_⟩
      rw [exec_phaseSample hp hcal (phaseSample_closes hz ha hs hc)]
      -- the statement writes the last update as a record
      change _ = Host.Outcome.next (State.setSlot k _ _)
      simp only [noteOvf_setSlot, setSlot_setSlot, noteOvf_noteOvf]

end Sys2Proof.Machine
end

section
/-! The measurement engine (R130 to R141): MEASURE_PHASE on a ready slot, outside and inside the frequency band, and
EV_TMR as the measurement of every ready slot followed by the publication of the totals. -/

namespace Sys2Proof.Machine

/-! ## One window (R130 to R135) -/

section
variable {N : NumStructure} {cfg : Cfg} {p : Slot}

theorem outOfBand_eq_true_iff {fl : NumValue} :
    outOfBand N cfg fl = true ↔ N.lt fl cfg.flineTolLow = true ∨ N.lt cfg.flineTolHigh fl = true := by
  simp only [outOfBand, Bool.or_eq_true]

theorem outOfBand_eq_false_iff {fl : NumValue} :
    outOfBand N cfg fl = false ↔ N.lt fl cfg.flineTolLow = false ∧ N.lt cfg.flineTolHigh fl = false := by
  simp only [outOfBand, Bool.or_eq_false_iff]

/-- The two voltage bits as comparisons: SAG is tested first, so it masks SWELL (R133). -/
theorem setVoltage_eq (vrms sag swell : NumValue) (t : PhaseStatus) :
    t.setVoltage N vrms sag swell =
      { t with sag := N.lt vrms sag, swell := !N.lt vrms sag && N.lt swell vrms } := by
  unfold PhaseStatus.setVoltage
  rcases N.lt vrms sag
  · rcases N.lt swell vrms <;> rfl
  · rfl

/-- Measuring a window outside the band (R131). -/
theorem measure_outOfBand (h : outOfBand N cfg (lineFrequency N cfg p.snap) = true) :
    p.measure N cfg =
      { p with
        sig := { p.sig with accReady := false, measReady := true }
        meas := Meas.cleared
        eu := EnergyUnits.cleared } := by
  simp only [Slot.measure, h, if_true, Slot.invalidWindow]

/-- Measuring a window in the band (R132 to R134). -/
theorem measure_inBand (h : outOfBand N cfg (lineFrequency N cfg p.snap) = false) :
    p.measure N cfg =
      { p.validWindow N cfg with sig := { p.sig with accReady := false, measReady := true } } := by
  simp only [Slot.measure, h, Bool.false_eq_true, if_false, Slot.validWindow]

end

/-- MEASURE_PHASE on a slot whose window is ready. -/
theorem exec_measurePhase {s : State} {k : Nat} {p : Slot} (hp : s.ph[k]? = some p) (hr : p.sig.accReady = true) :
    exec (.measurePhase k) s = .next (s.setSlot k (p.measure s.num s.cfg)) := by
  simp only [exec, execMeasurePhase, updateSlot_eq_setSlot hp, noteOvf_false, timerTick_ready hr]

/-- Settles O17: a line frequency on either side of the band is out of band, and the slot is written as for an invalid
window. -/
theorem invalidWindowZeroesOutputs : Obligations.InvalidWindowZeroesOutputs := by
  intro k s p hp hr hband
  rw [exec_measurePhase hp hr, measure_outOfBand (outOfBand_eq_true_iff.2 hband)]
  rfl

/-- Settles O18: the written quantities are the model's, in the order of R132, and the voltage bits are the two
comparisons. -/
theorem validWindowIsMeasured : Obligations.ValidWindowIsMeasured := by
  rintro k s p n fl vrms irms pw qw sw hp hr rfl rfl hlow hhigh rfl rfl rfl rfl rfl
  rw [exec_measurePhase hp hr, measure_inBand (outOfBand_eq_false_iff.2 ⟨hlow, hhigh⟩)]
  simp only [Slot.validWindow, setVoltage_eq]
  -- what is left are the names of the formulas of R132 and R134
  rfl

/-! ## The timer event (R140, R141) -/

/-- The totals are three independent sums, each in registration order. -/
theorem foldl_addUnits (N : NumStructure) (ph : List Slot) (t : EnergyUnits) :
    ph.foldl (addUnits N) t =
      ⟨(ph.map fun p => p.eu.act).foldl N.add t.act, (ph.map fun p => p.eu.react).foldl N.add t.react,
        (ph.map fun p => p.eu.app).foldl N.add t.app⟩ := by
  induction ph generalizing t with
  | nil => rfl
  | cons p ph ih => simp only [List.foldl_cons, List.map_cons, ih, addUnits]

theorem exec_evTmr_enabled {s : State} (h : s.ctrl.tmrEn = true) {ph : List Slot}
    (hph : s.ph.map (Slot.timerTick s.num s.cfg) = ph) :
    exec .evTmr s = .next { s with ph := ph, ledger := { s.ledger with unit := totalUnits s.num ph } } := by
  simp only [exec, execEvTmr, h, if_true, hph]

/-- The timer's part for one registered slot. -/
theorem timerTick_slot {s : State} {k : Nat} {p : Slot} (hp : s.ph[k]? = some p) :
    (s.ph.map (Slot.timerTick s.num s.cfg))[k]? = some (p.timerTick s.num s.cfg) := by
  rw [List.getElem?_map, hp, Option.map_some]

/-- Settles O19: the new table is the old one with the timer's part done slot by slot, and the published totals are the
sums over it. -/
theorem timerMeasuresReadySlotsAndPublishes : Obligations.TimerMeasuresReadySlotsAndPublishes := by
  intro s hen
  refine ⟨s.ph.map (Slot.timerTick s.num s.cfg), List.length_map _, fun k p hp hidle => ?idle,
    fun k p hp hready => ?ready, ?published⟩
  case idle => rw [timerTick_slot hp, timerTick_idle hidle]
  case ready =>
    refine ⟨_, exec_measurePhase hp hready, ?_⟩
    rw [timerTick_slot hp, timerTick_ready hready, setSlot_slot hp]
  case published =>
    rw [exec_evTmr_enabled hen rfl, totalUnits, foldl_addUnits]
    rfl

end Sys2Proof.Machine
end

section
/-! The phase-angle calibration sub-mode (R150 to R152): ANGLE_ENTER on a registered slot, and ANGLE_SAMPLE by which
of the two signals cross. -/

namespace Sys2Proof.Machine

/-! ## Crossings (R151) -/

theorem rises_eq_true_iff {last new : Int} : rises last new = true ↔ last ≤ 0 ∧ 0 < new := by
  simp only [rises, Bool.and_eq_true, decide_eq_true_eq]

theorem rises_eq_false_iff {last new : Int} : rises last new = false ↔ ¬(last ≤ 0 ∧ 0 < new) := by
  rw [← Bool.not_eq_true, rises_eq_true_iff]

/-! ## A crossing of both signals on one slot -/

section
variable {N : NumStructure} {ui : Nat} {p : Slot} {c : Stored Nat}

/-- A crossing of both signals that does not exceed `update_interval` only counts. -/
theorem angleSample_counts (hv : rises p.ang.lastV p.ws.v = true) (hi : rises p.ang.lastI p.ws.i = true)
    (hc : storeUnsigned 32 ((p.ang.cnt : Int) + 1) = c) (hle : c.val ≤ ui) :
    p.angleSample N ui =
      ⟨{ p with
          ang :=
            ⟨p.ws.v, p.ws.i, N.add p.ang.vFrac (crossingFraction N p.ws.v p.ang.lastV),
              N.add p.ang.iFrac (crossingFraction N p.ws.i p.ang.lastI), c.val, p.ang.status⟩ }, c.ovf⟩ := by
  rw [angleSample_both hv hi, hc, angleCrossing_eq N p ui c _ rfl, if_neg hle.not_gt]

/-- A crossing of both signals past `update_interval` also ends the sub-mode with ANG_OK. -/
theorem angleSample_completes (hv : rises p.ang.lastV p.ws.v = true) (hi : rises p.ang.lastI p.ws.i = true)
    (hc : storeUnsigned 32 ((p.ang.cnt : Int) + 1) = c) (hlt : ui < c.val) :
    p.angleSample N ui =
      ⟨{ p with
          ang :=
            ⟨p.ws.v, p.ws.i, N.add p.ang.vFrac (crossingFraction N p.ws.v p.ang.lastV),
              N.add p.ang.iFrac (crossingFraction N p.ws.i p.ang.lastI), c.val, .ok⟩
          sig := { p.sig with calAngle := false } }, c.ovf⟩ := by
  rw [angleSample_both hv hi, hc, angleCrossing_eq N p ui c _ rfl, if_pos hlt]

end

/-! ## The operations on a registered slot -/

section
variable {s : State} {k : Nat} {p q : Slot}

theorem exec_angleEnter (hp : s.ph[k]? = some p) : exec (.angleEnter k) s = .next (s.setSlot k p.angleEnter) := by
  simp only [exec, execAngleEnter, updateSlot_eq_setSlot hp, noteOvf_false]

theorem exec_angleSample {ovf : Bool} (hp : s.ph[k]? = some p) (hcal : p.sig.calAngle = true)
    (hq : p.angleSample s.num s.cfg.updateInterval = ⟨q, ovf⟩) :
    exec (.angleSample k) s = .next ((s.setSlot k q).noteOvf ovf) := by
  simp only [exec, execAngleSample, updateSlot_eq_setSlot hp, hcal, if_true, hq]

theorem exec_angleSample_fits (hp : s.ph[k]? = some p) (hcal : p.sig.calAngle = true)
    (hq : p.angleSample s.num s.cfg.updateInterval = ⟨q, false⟩) :
    exec (.angleSample k) s = .next (s.setSlot k q) := by
  rw [exec_angleSample hp hcal hq, noteOvf_false]

end

/-- Settles O20: the primed slot, written out. -/
theorem angleEnterPrimesTheSubMode : Obligations.AngleEnterPrimesTheSubMode :=
  fun _ _ _ => exec_angleEnter

/-- Settles O21: when both signals cross, the stored counter decides whether the sub-mode ends; a counter that wraps is
stored as 0 and so never ends it. -/
theorem angleSampleAveragesCrossings : Obligations.AngleSampleAveragesCrossings := by
  rintro k s p _ _ hp hcal rfl rfl
  refine ⟨fun ⟨hv, hi, hfits, hle⟩ => ?counts, fun ⟨hv, hi, hfits, hlt⟩ => ?completes,
    fun ⟨hv, hi, hlast⟩ => ?wraps, fun hone => ?one, fun ⟨hv, hi⟩ => ?none⟩
  case counts =>
    exact exec_angleSample_fits hp hcal
      (angleSample_counts (rises_eq_true_iff.2 hv) (rises_eq_true_iff.2 hi) (storeUnsigned_succ_of_lt hfits) hle)
  case completes =>
    exact exec_angleSample_fits hp hcal
      (angleSample_completes (rises_eq_true_iff.2 hv) (rises_eq_true_iff.2 hi) (storeUnsigned_succ_of_lt hfits) hlt)
  case wraps =>
    have hzero : storeUnsigned 32 ((p.ang.cnt : Int) + 1) = ⟨0, true⟩ := by
      rw [storeUnsigned_succ_of_le hlast.ge, hlast, Nat.mod_self]
    rw [exec_angleSample hp hcal
      (angleSample_counts (rises_eq_true_iff.2 hv) (rises_eq_true_iff.2 hi) hzero (Nat.zero_le _)), noteOvf_true]
    rfl
  case one =>
    have hdiffer : rises p.ang.lastV p.ws.v ≠ rises p.ang.lastI p.ws.i := by
      obtain ⟨hv, hi⟩ | ⟨hv, hi⟩ := hone
      · rw [rises_eq_true_iff.2 hv, rises_eq_false_iff.2 hi]; decide
      · rw [rises_eq_false_iff.2 hv, rises_eq_true_iff.2 hi]; decide
    exact exec_angleSample_fits hp hcal (angleSample_one hdiffer _ _)
  case none =>
    exact exec_angleSample_fits hp hcal
      (angleSample_none (rises_eq_false_iff.2 hv) (rises_eq_false_iff.2 hi) _ _)

end Sys2Proof.Machine
end

section
/-! The commands with several results that read the block (R175, R176, R216, R219): the records of a slot, the sequencer
and the status words. -/

namespace Sys2Proof.Machine

/-! ## The results of a command (R82) -/

/-- A result whose register exists is written to it. -/
theorem writeFrom_cons_of_lt {i : Nat} (hi : i < 16) (v : Word) (vs : List Word) (r : Vector Word 16) :
    writeFrom i (v :: vs) r = writeFrom (i + 1) vs (r.set i v hi) := by
  have hset : r.setIfInBounds i v = r.set i v hi := by
    ext j hj
    simp only [Vector.getElem_setIfInBounds, Vector.getElem_set]
  simp only [writeFrom, hset]

theorem writeFrom_nil (i : Nat) (r : Vector Word 16) : writeFrom i [] r = r := rfl

/-! ## The words of the status (R24, R25, R175, R219) -/

theorem ctrlWord_eq (s : State) :
    s.ctrlWord =
      BitVec.ofNat 32
        ((if s.ctrl.init then 1 else 0) + (if s.ctrl.adcEn then 2 else 0) + (if s.ctrl.tmrEn then 4 else 0) +
          (if s.ctrl.rtcEn then 8 else 0) + (if s.seq.state = .idle then 0 else 16)) := by
  have hbusy : flagAt 4 s.busy = if s.seq.state = .idle then 0 else 16 := by
    by_cases h : s.seq.state = .idle <;> simp [State.busy, flagAt, h]
  rw [State.ctrlWord, hbusy]
  rfl

theorem faultWord_eq (f : FaultBits) :
    f.word = BitVec.ofNat 32 ((if f.ovf then 1 else 0) + (if f.bus then 2 else 0)) := rfl

/-! ## The commands -/

/-- Settles O48: both read the slot, and the results go to the registers in order. -/
theorem recordGettersReadTheSlot : Obligations.RecordGettersReadTheSlot := by
  refine fun k s p hp => ⟨?_, ?_⟩
  · refine (readSlotCommand_some hp _).trans ?_
    simp only [State.respond, Meas.words, writeFrom_cons_of_lt, writeFrom_nil, Nat.reduceAdd, Nat.reduceLT]
  · refine (readSlotCommand_some hp _).trans ?_
    simp only [State.respond, Slot.calWords, writeFrom_cons_of_lt, writeFrom_nil, Nat.reduceAdd, Nat.reduceLT]
    rcases p.ang.status <;> rfl

/-- Settles O50: neither has a check, and the results go to the registers in order. -/
theorem statusCommandsReadTheBlock : Obligations.StatusCommandsReadTheBlock := by
  refine fun s => ⟨?_, ?_⟩
  · refine (hostCommand_passes firstFailure_nil s _ s).trans ?_
    simp only [State.respond, writeFrom_cons_of_lt, writeFrom_nil, Nat.reduceAdd, Nat.reduceLT]
    rcases s.seq.state <;> rfl
  · refine (hostCommand_passes firstFailure_nil s _ s).trans ?_
    simp only [State.respond, writeFrom_cons_of_lt, writeFrom_nil, Nat.reduceAdd, Nat.reduceLT, ctrlWord_eq,
      faultWord_eq]
    rfl

end Sys2Proof.Machine
end

section
/-! The calibration sequences (R160 to R173): the commands that start one, and SEQ_STEP at the end of each stage. -/

namespace Sys2Proof.Machine

/-! ## The commands that start a sequence (R162, R163) -/

section
variable {N : NumStructure} {a : Vector Word 16}

theorem readTargets_of_dec {vt it : NumValue} (hv : N.dec a[0] = some vt) (hi : N.dec a[1] = some it)
    (hvt : N.positive vt = true) (hit : N.positive it = true) : readTargets N a = some (vt, it) := by
  simp only [readTargets, numOperand_of_dec hv hvt, numOperand_of_dec hi hit]

theorem readWindow_of_dec {rp ft : NumValue} (h0 : a[0] ≠ 0#32) (hr : N.dec a[1] = some rp) (hf : N.dec a[2] = some ft)
    (hrp : N.positive rp = true) (hft : N.positive ft = true) : readWindow N a = some (a[0].toNat, rp, ft) := by
  have hcount : natOperand 1 (2 ^ 32 - 1) a[0] = some a[0].toNat := natOperand_of_range (by bv_omega) (by omega)
  simp only [readWindow, hcount, numOperand_of_dec hr hrp, numOperand_of_dec hf hft]

end

/-- A command without results whose checks all pass. -/
theorem hostCommand_passes_nil {checks : List (Bool × ResultCode)} (h : firstFailure checks = none)
    (after s : State) : hostCommand checks after [] s = .next { after with rc := .ok } := by
  rw [hostCommand_passes h, respond_nil]

/-- The effect of PHASE_CALIBRATE on a registered slot, field by field. -/
theorem beginPhaseCal_eq {s : State} {k : Nat} {p : Slot} (hp : s.ph[k]? = some p) (lc : Nat) (vt it : NumValue) :
    s.beginPhaseCal k lc vt it =
      { s with
        ctrl := { s.ctrl with adcEn := true, tmrEn := false }
        trace := s.trace ++ [.adcStop, .tmrStop, .adcStart]
        cfg := { s.cfg with updateInterval := lc }
        seq :=
          { s.seq with
            state := .pcalW1, target := k, savedUi := s.cfg.updateInterval, vrmsTgt := vt, irmsTgt := it }
        ph := s.ph.set k p.hardReset } := by
  simp only [State.beginPhaseCal, State.hardResetSlot]
  rw [updateSlot_some (p := p) (by exact hp)]
  simp [State.startAdc, State.stopAdc, State.stopTmr, State.emit]

theorem ensureRtc_eq (s : State) :
    s.ensureRtc =
      { s with
        ctrl := { s.ctrl with rtcEn := true }
        trace := s.trace ++ (if s.ctrl.rtcEn then [] else [.rtcStart]) } := by
  rcases hrtc : s.ctrl.rtcEn
  · simp [State.ensureRtc, hrtc, State.startRtc, State.emit]
  · have hctrl : { s.ctrl with rtcEn := true } = s.ctrl := by rw [← hrtc]
    simp [State.ensureRtc, hrtc, hctrl]

theorem beginGlobalCal_eq (s : State) (n : Nat) (rp ft : NumValue) :
    s.beginGlobalCal n rp ft =
      { s with
        ctrl := { s.ctrl with adcEn := false, tmrEn := false, rtcEn := true }
        trace := s.trace ++ [.adcStop, .tmrStop] ++ (if s.ctrl.rtcEn then [] else [.rtcStart])
        seq := { s.seq with state := .gcalW, rtcCycles := n, rtcPeriod := rp, flineTarget := ft }
        cfs := ⟨true, false, false, n, 0, 0⟩ } := by
  simp [State.beginGlobalCal, ensureRtc_eq, State.stopAdc, State.stopTmr, State.emit]

/-- Settles O30: the operands are legal and every check passes, so the command has its effect. -/
theorem phaseCalibrateStartsTheSequence : Obligations.PhaseCalibrateStartsTheSequence := by
  intro k lc s p vt it hb hinit hp hlc hv hi hvt hit
  have hk : k < s.nPhases := lt_of_slot hp
  simp only [exec, execPhaseCalibrate, readTargets_of_dec hv hi hvt hit]
  rw [hostCommand_passes_nil (by simp [busyCheck, initCheck, phaseCheck, State.registered, hb, hinit, hk, hlc]),
    beginPhaseCal_eq hp, hardReset_eq]

/-- Settles O31: the operands are legal and every check passes, so the command has its effect. -/
theorem globalCalibrateArmsTheWindow : Obligations.GlobalCalibrateArmsTheWindow := by
  intro s rp ft hb hinit h0 hr hf hrp hft
  simp only [exec, execGlobalCalibrate, readWindow_of_dec h0 hr hf hrp hft]
  rw [hostCommand_passes_nil (by simp [busyCheck, initCheck, hb, hinit]), beginGlobalCal_eq]

/-! ## SEQ_STEP at the end of a stage (R170 to R173) -/

theorem endSequence_eq (r : ResultCode) (s : State) :
    s.endSequence r =
      { s with
        ctrl := { s.ctrl with adcEn := true, tmrEn := true }
        trace := s.trace ++ [.adcStart, .tmrStart]
        seq := { s.seq with state := .idle, result := r } } := by
  simp [State.endSequence, State.startAdc, State.startTmr, State.emit]

section
variable {s : State} {p : Slot} {c : Coef}

theorem finishCoefficients_usable (hc : calibrated s.num s.seq.vrmsTgt s.seq.irmsTgt p.snap p.coef = c)
    (hu : c.usable s.num = true) :
    s.finishCoefficients p =
      { s with
        ctrl := { s.ctrl with adcEn := true }
        trace := s.trace ++ [.adcStop, .adcStart]
        cfg := { s.cfg with updateInterval := s.seq.savedUi }
        ph := s.ph.set s.seq.target (({ p with coef := c } : Slot).hardReset.angleEnter)
        seq := { s.seq with state := .pcalW2 } } := by
  simp only [State.finishCoefficients, hc, if_pos hu]
  simp [State.startAdc, State.stopAdc, State.emit, State.restoreInterval, State.setSlot]

theorem finishCoefficients_unusable (hc : calibrated s.num s.seq.vrmsTgt s.seq.irmsTgt p.snap p.coef = c)
    (hu : c.usable s.num = false) :
    s.finishCoefficients p =
      { s with
        ctrl := { s.ctrl with adcEn := true, tmrEn := true }
        trace := s.trace ++ [.adcStop, .adcStart, .tmrStart]
        cfg := { s.cfg with updateInterval := s.seq.savedUi }
        ph := s.ph.set s.seq.target p.hardReset
        seq := { s.seq with state := .idle, result := .errCal } } := by
  simp only [State.finishCoefficients, hc, hu, Bool.false_eq_true, if_false, endSequence_eq]
  simp [State.stopAdc, State.emit, State.restoreInterval, State.setSlot]

end

theorem finishAngle_eq (s : State) (p : Slot) :
    s.finishAngle p =
      { s with
        ctrl := { s.ctrl with adcEn := true, tmrEn := true }
        trace := s.trace ++ [.adcStop, .adcStart, .tmrStart]
        ph := s.ph.set s.seq.target
          (({ p with
              coef :=
                { p.coef with
                  viPhaseCorrection := phaseCorrection s.num s.cfg.degPerSample p.ang } } : Slot).hardReset)
        seq := { s.seq with state := .idle, result := .ok } } := by
  simp [State.finishAngle, endSequence_eq, State.stopAdc, State.emit, State.setSlot]

theorem finishGlobal_counted {s : State} (h : s.cfs.adcCnt ≠ 0) :
    s.finishGlobal =
      { s with
        ctrl := { s.ctrl with adcEn := true, tmrEn := true }
        trace := s.trace ++ [.adcStart, .tmrStart]
        cfg := s.cfg.recalibrated s.num (measuredFs s.num s.seq s.cfs.adcCnt) s.seq.flineTarget
        cfs := { s.cfs with finished := false }
        seq := { s.seq with state := .idle, result := .ok } } := by
  simp only [State.finishGlobal, if_neg h, endSequence_eq]

theorem finishGlobal_uncounted {s : State} (h : s.cfs.adcCnt = 0) :
    s.finishGlobal =
      { s with
        ctrl := { s.ctrl with adcEn := true, tmrEn := true }
        trace := s.trace ++ [.adcStart, .tmrStart]
        cfs := { s.cfs with finished := false }
        seq := { s.seq with state := .idle, result := .errCal } } := by
  simp only [State.finishGlobal, if_pos h, endSequence_eq]

theorem usable_iff (N : NumStructure) (c : Coef) :
    c.usable N = true ↔ N.positive c.vrmsCoeff = true ∧ N.positive c.irmsCoeff = true ∧ N.positive c.pCoeff = true := by
  simp only [Coef.usable, Bool.and_eq_true, and_assoc]

theorem usable_eq_false_iff (N : NumStructure) (c : Coef) :
    c.usable N = false ↔
      N.positive c.vrmsCoeff = false ∨ N.positive c.irmsCoeff = false ∨ N.positive c.pCoeff = false := by
  simp only [Coef.usable, Bool.and_eq_false_iff, or_assoc]

/-- Settles O32: the target is ready, and whether its coefficients are usable decides between the two ends. -/
theorem seqStepComputesCoefficients : Obligations.SeqStepComputesCoefficients := by
  rintro s p _ _ hs hp hready rfl rfl
  have hstep : exec .seqStep s = .next (s.finishCoefficients p) :=
    (execSeqStep_first hs hp).trans (by rw [if_pos hready])
  refine ⟨fun h => ?usable, fun h => ?unusable⟩
  case usable =>
    rw [hstep, finishCoefficients_usable rfl ((usable_iff ..).2 h)]
    rfl
  case unusable =>
    rw [hstep, finishCoefficients_unusable rfl ((usable_eq_false_iff ..).2 h), hardReset_eq]

/-- Settles O33: the target has left the sub-mode, so the step finishes the angle. -/
theorem seqStepComputesPhaseCorrection : Obligations.SeqStepComputesPhaseCorrection := by
  intro s p hs hp hcal
  have hstep : exec .seqStep s = .next (s.finishAngle p) :=
    (execSeqStep_second hs hp).trans (by rw [hcal]; rfl)
  rw [hstep, finishAngle_eq, hardReset_eq]
  rfl

/-- Settles O34: the window is finished, and whether a sample was counted decides between the two ends. -/
theorem seqStepComputesSamplingFrequency : Obligations.SeqStepComputesSamplingFrequency := by
  rintro s _ hs hfinished rfl
  have hstep : exec .seqStep s = .next s.finishGlobal := (execSeqStep_global hs).trans (if_pos hfinished)
  refine ⟨fun h => ?counted, fun h => ?uncounted⟩
  case counted =>
    rw [hstep, finishGlobal_counted h]
    rfl
  case uncounted => rw [hstep, finishGlobal_uncounted h]

end Sys2Proof.Machine
end

section
/-! The commands that are refused: what a running sequence refuses (R161, R174), and what the control state or the slot
number does not allow (R231). -/

namespace Sys2Proof.Machine

/-! ## The checks of each command, in their order (R231) -/

theorem exec_init_eq (s : State) :
    ∃ rest after, exec .init s = hostCommand (busyCheck s :: samplingCheck s :: rest) after [] s := by
  simp only [exec, execInit]
  split <;> exact ⟨_, _, rfl⟩

theorem exec_phaseLoadCal_eq (k : Nat) (s : State) :
    ∃ rest after, exec (.phaseLoadCal k) s = hostCommand (busyCheck s :: phaseCheck k s :: rest) after [] s := by
  simp only [exec, execPhaseLoadCal]
  split <;> exact ⟨_, _, rfl⟩

theorem exec_phaseCalibrate_eq (k lc : Nat) (s : State) :
    ∃ rest after,
      exec (.phaseCalibrate k lc) s =
        hostCommand (busyCheck s :: initCheck s :: phaseCheck k s :: rest) after [] s := by
  simp only [exec, execPhaseCalibrate]
  split <;> exact ⟨_, _, rfl⟩

theorem exec_globalCalibrate_eq (s : State) :
    ∃ rest after, exec .globalCalibrate s = hostCommand (busyCheck s :: initCheck s :: rest) after [] s := by
  simp only [exec, execGlobalCalibrate]
  split <;> exact ⟨_, _, rfl⟩

theorem exec_energySet_eq (s : State) :
    ∃ rest after, exec .energySet s = hostCommand (initCheck s :: rest) after [] s ∧ ∀ c ∈ rest, c.2 = .errArg := by
  simp only [exec, execEnergySet]
  split
  · exact ⟨[], _, rfl, nofun⟩
  · exact ⟨[(true, .errArg)], _, rfl, by simp⟩

theorem phaseCheck_of_slot {s : State} {k : Nat} {p : Slot} (hp : s.ph[k]? = some p) :
    phaseCheck k s = (false, .errPhase) := by
  have hk : k < s.nPhases := lt_of_slot hp
  simp [phaseCheck, State.registered, hk]

theorem phaseCheck_of_unregistered {s : State} {k : Nat} (hk : s.nPhases ≤ k) :
    phaseCheck k s = (true, .errPhase) := by
  simp [phaseCheck, State.registered, hk]

theorem readSlotCommand_checks (k : Nat) (words : Slot → List Word) (s : State) :
    ∃ results, readSlotCommand k words s = hostCommand [phaseCheck k s] s results s := by
  unfold readSlotCommand
  rcases hp : s.ph[k]? with _ | p
  · exact ⟨[], by rw [phaseCheck_of_unregistered (List.getElem?_eq_none_iff.1 hp)]⟩
  · exact ⟨words p, by rw [phaseCheck_of_slot hp]; rfl⟩

theorem exec_measReady_checks (k : Nat) (s : State) :
    ∃ after results, exec (.measReady k) s = hostCommand [phaseCheck k s] after results s := by
  simp only [exec, execMeasReady]
  rcases hp : s.ph[k]? with _ | p
  · exact ⟨s, [], by rw [phaseCheck_of_unregistered (List.getElem?_eq_none_iff.1 hp)]⟩
  · exact ⟨_, _, by rw [phaseCheck_of_slot hp]; rfl⟩

/-- MEAS_READY and the getters of a slot check only that the slot is registered (R176, R209 to R216, R218). -/
theorem exec_slotCommand_eq {i : Instr} {k : Nat} (hi : i ∈ slotCommands k) (s : State) :
    ∃ after results, exec i s = hostCommand [phaseCheck k s] after results s := by
  have hread (words : Slot → List Word) :
      ∃ after results, readSlotCommand k words s = hostCommand [phaseCheck k s] after results s :=
    ⟨s, readSlotCommand_checks k words s⟩
  simp only [slotCommands, List.mem_cons, List.not_mem_nil, or_false] at hi
  obtain rfl | rfl | rfl | rfl | rfl | rfl | rfl | rfl | rfl | rfl := hi
  exacts [hread _, hread _, hread _, hread _, hread _, hread _, hread _, hread _, exec_measReady_checks k s, hread _]

/-! ## What a running sequence refuses (R161, R174) -/

/-- The code of a failing check is that of one of the checks. -/
theorem firstFailure_mem {checks : List (Bool × ResultCode)} {rc : ResultCode} (h : firstFailure checks = some rc) :
    ∃ c ∈ checks, c.2 = rc := by
  induction checks with
  | nil => cases h
  | cons c rest ih =>
    obtain ⟨fails, code⟩ := c
    rw [firstFailure_cons] at h
    split at h
    · exact ⟨_, List.mem_cons_self, Option.some.inj h⟩
    · obtain ⟨d, hd, hrc⟩ := ih h
      exact ⟨d, List.mem_cons_of_mem _ hd, hrc⟩

/-- A command without a check for a running sequence ends with another code. -/
theorem hostCommand_rc_ne_errBusy {checks : List (Bool × ResultCode)} (h : ∀ c ∈ checks, c.2 ≠ .errBusy)
    (after : State) (results : List Word) (s : State) :
    ∃ t : State, hostCommand checks after results s = .next t ∧ t.rc ≠ .errBusy := by
  obtain ⟨_, he⟩ | ⟨rc, hf, he⟩ := hostCommand_cases checks after results s
  · exact ⟨_, he, nofun⟩
  · obtain ⟨c, hc, rfl⟩ := firstFailure_mem hf
    exact ⟨_, he, h c hc⟩

/-- The first check of each of the eight commands is that no sequence runs. -/
theorem exec_refusedWhileBusy_eq {i : Instr} (hi : refusedWhileBusy i = true) (s : State) :
    ∃ rest after results, exec i s = hostCommand (busyCheck s :: rest) after results s := by
  cases i
  case init =>
    obtain ⟨_, _, h⟩ := exec_init_eq s
    exact ⟨_, _, _, h⟩
  case phaseLoadCal k =>
    obtain ⟨_, _, h⟩ := exec_phaseLoadCal_eq k s
    exact ⟨_, _, _, h⟩
  case phaseCalibrate k lc =>
    obtain ⟨_, _, h⟩ := exec_phaseCalibrate_eq k lc s
    exact ⟨_, _, _, h⟩
  case globalCalibrate =>
    obtain ⟨_, _, h⟩ := exec_globalCalibrate_eq s
    exact ⟨_, _, _, h⟩
  case deinit | start | stop | phaseRegister => exact ⟨_, _, _, rfl⟩
  all_goals cases hi

/-- No other host command has that check. -/
theorem exec_admittedWhileBusy_eq {i : Instr} (hc : i.opClass = .host) (hi : refusedWhileBusy i = false) (s : State) :
    ∃ checks after results,
      exec i s = hostCommand checks after results s ∧ ∀ c ∈ checks, c.2 ≠ .errBusy := by
  have hslot {k : Nat} (hmem : i ∈ slotCommands k) :
      ∃ checks after results, exec i s = hostCommand checks after results s ∧ ∀ c ∈ checks, c.2 ≠ .errBusy := by
    obtain ⟨_, _, h⟩ := exec_slotCommand_eq hmem s
    exact ⟨_, _, _, h, by simp [phaseCheck]⟩
  cases i
  case statusGet k | vrmsGet k | irmsGet k | flineGet k | pGet k | qGet k | sGet k | measGet k | measReady k |
      phaseCalGet k =>
    exact hslot (k := k) (by simp [slotCommands])
  case energySet =>
    obtain ⟨rest, _, h, hrest⟩ := exec_energySet_eq s
    refine ⟨_, _, _, h, List.forall_mem_cons.2 ⟨nofun, fun c hc => ?_⟩⟩
    rw [hrest c hc]
    nofun
  case consGet => exact ⟨_, _, _, rfl, by simp [initCheck]⟩
  case energyGet | seqStatus | statGet => exact ⟨[], _, _, rfl, nofun⟩
  case init | deinit | start | stop | phaseRegister | phaseLoadCal | phaseCalibrate | globalCalibrate => cases hi
  all_goals cases hc

theorem exec_refusedWhileBusy {i : Instr} {s : State} (hi : refusedWhileBusy i = true) (hb : s.busy = true) :
    exec i s = .next { s with rc := .errBusy } := by
  obtain ⟨_, _, _, h⟩ := exec_refusedWhileBusy_eq hi s
  rw [h, hostCommand_fails (by rw [busyCheck, hb]; rfl)]

/-- Settles O36: the first check of eight commands is that no sequence runs, and no other command has it. -/
theorem busyRefusesEightCommands : Obligations.BusyRefusesEightCommands := by
  refine fun i s hb => ⟨fun hi => exec_refusedWhileBusy hi hb, fun hc hi => ?_⟩
  obtain ⟨_, _, _, h, hcodes⟩ := exec_admittedWhileBusy_eq hc hi s
  rw [h]
  exact hostCommand_rc_ne_errBusy hcodes ..

/-- Settles O35: a refused command changes only `RC`; no other operation but SEQ_STEP writes the three. -/
theorem onlySeqStepMovesARunningSequence : Obligations.OnlySeqStepMovesARunningSequence := by
  intro i s t hb hstep h
  rcases hi : refusedWhileBusy i
  · have hcontrol := exec_control h
    obtain ⟨_, hlen | ⟨rfl, _⟩ | ⟨rfl, _⟩⟩ := exec_slots h
    · refine ⟨controlChange_seq_of_busy hcontrol hstep (by simpa [State.busy] using hb), ?_, hlen⟩
      rw [controlChange_cfg hcontrol (by rintro rfl; cases hi) hstep (by rintro k lc rfl; cases hi)]
    · cases hi
    · cases hi
  · cases (exec_refusedWhileBusy hi hb).symm.trans h
    exact ⟨rfl, rfl, rfl⟩

/-! ## A control state or a slot number that is not allowed (R231) -/

/-- Settles O37: the check that fails is the first one that does. -/
theorem wrongStateOrSlotIsRefused : Obligations.WrongStateOrSlotIsRefused := by
  refine fun s => ⟨fun hb hrun => ?init, fun hb hstate => ?phaseRegister, fun hb hinit => ?beforeInit,
    fun hinit => ?ledger, fun k hk => ?slot⟩
  case init =>
    obtain ⟨_, _, h⟩ := exec_init_eq s
    rw [h]
    exact hostCommand_fails (by simp [busyCheck, samplingCheck, hb, hrun]) ..
  case phaseRegister =>
    refine hostCommand_fails ?_ ..
    rcases hinit : s.ctrl.init
    · simp [busyCheck, initCheck, hb, hinit]
    · have hrun : s.ctrl.adcEn = true ∨ s.ctrl.tmrEn = true := by simpa [hinit] using hstate
      simp [busyCheck, initCheck, samplingCheck, hb, hinit, hrun]
  case beforeInit =>
    have hfails (rest : List (Bool × ResultCode)) :
        firstFailure (busyCheck s :: initCheck s :: rest) = some .errState := by
      simp [busyCheck, initCheck, hb, hinit]
    refine ⟨hostCommand_fails (hfails _) .., fun k lc => ?_, ?_⟩
    · obtain ⟨_, _, h⟩ := exec_phaseCalibrate_eq k lc s
      rw [h]
      exact hostCommand_fails (hfails _) ..
    · obtain ⟨_, _, h⟩ := exec_globalCalibrate_eq s
      rw [h]
      exact hostCommand_fails (hfails _) ..
  case ledger =>
    have hfails (rest : List (Bool × ResultCode)) : firstFailure (initCheck s :: rest) = some .errState := by
      simp [initCheck, hinit]
    obtain ⟨_, _, h, _⟩ := exec_energySet_eq s
    refine ⟨?_, hostCommand_fails (hfails _) ..⟩
    rw [h]
    exact hostCommand_fails (hfails _) ..
  case slot =>
    have hphase : phaseCheck k s = (true, .errPhase) := phaseCheck_of_unregistered hk
    refine ⟨fun i hi => ?_, fun hb => ?_, fun lc hb hinit => ?_⟩
    · obtain ⟨_, _, h⟩ := exec_slotCommand_eq hi s
      rw [h]
      exact hostCommand_fails (by simp [hphase]) ..
    · obtain ⟨_, _, h⟩ := exec_phaseLoadCal_eq k s
      rw [h]
      exact hostCommand_fails (by simp [busyCheck, hb, hphase]) ..
    · obtain ⟨_, _, h⟩ := exec_phaseCalibrate_eq k lc s
      rw [h]
      exact hostCommand_fails (by simp [busyCheck, initCheck, hb, hinit, hphase]) ..

end Sys2Proof.Machine
end

section
/-! The fs-calibration window (R180 to R182): EV_RTC arms it, counts it down and ends it; inside it EV_ADC only counts
the sample (R190). -/

namespace Sys2Proof.Machine

/-! ## EV_RTC (R180) -/

section
variable {s : State}

theorem exec_evRtc_arms (he : s.ctrl.rtcEn = true) (hs : s.cfs.start = true) :
    exec .evRtc s = .next { s with cfs := { s.cfs with start := false, running := true } }.startAdc := by
  simp only [exec, execEvRtc, he, hs, if_true]

/-- A tick inside the window decides by the decremented count; a count from 1 to `2^32` loses 1 without overflow. -/
theorem exec_evRtc_running (he : s.ctrl.rtcEn = true) (hs : s.cfs.start = false) (hr : s.cfs.running = true)
    (hpos : 1 ≤ s.cfs.rtcCnt) (hmax : s.cfs.rtcCnt ≤ 2 ^ 32) :
    exec .evRtc s =
      if s.cfs.rtcCnt - 1 = 0 then
        .next { s with
          cfs := { s.cfs with rtcCnt := s.cfs.rtcCnt - 1, running := false, finished := true } }.stopAdc
      else .next { s with cfs := { s.cfs with rtcCnt := s.cfs.rtcCnt - 1 } } := by
  simp only [exec, execEvRtc, he, hs, hr, if_true, Bool.false_eq_true, if_false, storeUnsigned_pred hpos hmax,
    noteOvf_false]

theorem exec_evRtc_outside (he : s.ctrl.rtcEn = true) (hs : s.cfs.start = false) (hr : s.cfs.running = false) :
    exec .evRtc s = .next s := by
  simp only [exec, execEvRtc, he, hs, hr, if_true, Bool.false_eq_true, if_false]

end

/-- Settles O28: the tick that arms the window, a tick inside it by whether the decremented count is 0, and a tick
outside it. -/
theorem rtcGatesTheWindow : Obligations.RtcGatesTheWindow := by
  refine fun s he => ⟨fun hs => ?arms, fun hs hr hlow hhigh => ?counts, fun hs hr hone => ?ends,
    exec_evRtc_outside he⟩
  case arms => exact exec_evRtc_arms he hs
  case counts => rw [exec_evRtc_running he hs hr (by omega) hhigh, if_neg (by omega)]
  case ends =>
    rw [exec_evRtc_running he hs hr (by omega) (by omega), if_pos (by omega), hone]
    rfl

/-! ## EV_ADC inside the window (R190) -/

theorem exec_evAdc_inside {s : State} (he : s.adcEnabled = true) (hr : s.cfs.running = true) :
    exec .evAdc s = .next s.countSample := by
  simp only [exec, execEvAdc, he, hr, if_true]

theorem countSample_of_lt {s : State} (h : s.cfs.adcCnt + 1 < 2 ^ 32) :
    s.countSample = { s with cfs := { s.cfs with adcCnt := s.cfs.adcCnt + 1 } } := by
  simp only [State.countSample, storeUnsigned_succ_of_lt h, noteOvf_false]

theorem countSample_of_eq {s : State} (h : s.cfs.adcCnt + 1 = 2 ^ 32) :
    s.countSample = { s with cfs := { s.cfs with adcCnt := 0 }, fault := { s.fault with ovf := true } } := by
  simp only [State.countSample, storeUnsigned_succ_of_le h.ge, h, Nat.mod_self, noteOvf_true]

/-- Settles O26: the sample is counted, and the count either fits `uint_32` or is the one past it. -/
theorem adcOnlyCountsDuringWindow : Obligations.AdcOnlyCountsDuringWindow := by
  intro s he hr
  rw [exec_evAdc_inside he hr]
  exact ⟨fun hfits => congrArg _ (countSample_of_lt hfits), fun hwraps => congrArg _ (countSample_of_eq hwraps)⟩

end Sys2Proof.Machine
end

section
/-! The impulse LEDs, ADD and the quadrant routing (R185 to R189). -/

namespace Sys2Proof.Machine

/-- Aging one LED leaves the other two as they are, so the three counters and requests are those of the start. -/
theorem ledDecay_eq {s : State} (hact : s.led.act.cnt + 1 < 2 ^ 32) (hreact : s.led.react.cnt + 1 < 2 ^ 32)
    (happ : s.led.app.cnt + 1 < 2 ^ 32) :
    s.ledDecay =
      { s with
        led :=
          ⟨agedLed s.cfg.ledOnCount s.led.act, agedLed s.cfg.ledOnCount s.led.react,
            agedLed s.cfg.ledOnCount s.led.app⟩
        trace :=
          s.trace ++ decayRequests s.cfg.ledOnCount .act s.led.act ++
            decayRequests s.cfg.ledOnCount .react s.led.react ++
            decayRequests s.cfg.ledOnCount .app s.led.app } := by
  rw [State.ledDecay, decayLed_eq .act s hact, decayLed_eq .react, decayLed_eq .app]
  · rfl
  · exact happ
  · exact hreact

/-- Settles O22. -/
theorem ledDecayAgesTheLeds : Obligations.LedDecayAgesTheLeds :=
  fun _ hact hreact happ => congrArg _ (ledDecay_eq hact hreact happ)

/-- Settles O23: the rollover and the addition below the constant, the LED being the one of R185. -/
theorem addEnergyRollsOverOnce : Obligations.AddEnergyRollsOverOnce := by
  intro c x s l hl
  have hled : l = c.ledOf s.par.appExpLedQuirk := by cases c <;> exact hl
  rw [hled]
  exact ⟨addEnergy_rollover c x s, addEnergy_below c x s⟩

section
variable {s : State}

theorem energyRoute_import_positive (ha : s.num.le NumValue.zero s.ledger.unit.act = true)
    (hr : s.num.le NumValue.zero s.ledger.unit.react = true) :
    s.energyRoute =
      ((s.addEnergy .actImp s.ledger.unit.act).addEnergy .appImp s.ledger.unit.app).addEnergy .lReactImp
        s.ledger.unit.react := by
  simp only [State.energyRoute, ha, hr, if_true]

theorem energyRoute_import_negative (ha : s.num.le NumValue.zero s.ledger.unit.act = true)
    (hr : s.num.le NumValue.zero s.ledger.unit.react = false) :
    s.energyRoute =
      ((s.addEnergy .actImp s.ledger.unit.act).addEnergy .appImp s.ledger.unit.app).addEnergy .cReactExp
        s.ledger.unit.react := by
  simp only [State.energyRoute, ha, hr, if_true, Bool.false_eq_true, if_false]

theorem energyRoute_export_positive (ha : s.num.le NumValue.zero s.ledger.unit.act = false)
    (hr : s.num.le NumValue.zero s.ledger.unit.react = true) :
    s.energyRoute =
      ((s.addEnergy .actExp s.ledger.unit.act).addEnergy .appExp s.ledger.unit.app).addEnergy .cReactImp
        s.ledger.unit.react := by
  simp only [State.energyRoute, ha, hr, if_true, Bool.false_eq_true, if_false]

theorem energyRoute_export_negative (ha : s.num.le NumValue.zero s.ledger.unit.act = false)
    (hr : s.num.le NumValue.zero s.ledger.unit.react = false) :
    s.energyRoute =
      ((s.addEnergy .actExp s.ledger.unit.act).addEnergy .appExp s.ledger.unit.app).addEnergy .lReactExp
        s.ledger.unit.react := by
  simp only [State.energyRoute, ha, hr, Bool.false_eq_true, if_false]

end

/-- Settles O24, quadrant by quadrant. -/
theorem energyRouteFollowsTheQuadrant : Obligations.EnergyRouteFollowsTheQuadrant := by
  rintro s u rfl
  exact ⟨fun ha hr => congrArg _ (energyRoute_import_positive ha hr),
    fun ha hr => congrArg _ (energyRoute_import_negative ha hr),
    fun ha hr => congrArg _ (energyRoute_export_positive ha hr),
    fun ha hr => congrArg _ (energyRoute_export_negative ha hr)⟩

end Sys2Proof.Machine
end

section
/-! Binary32 sums (R9, log entry 7): a value on the number line, and the bounds that rounding respects. Every finite
value is a multiple of 2^-149, and so is an exact sum; the bounds are stated in these units, in which `roundRatio` with
the denominator 2^149 rounds a natural number. -/

namespace Sys2Proof

/-! ## Fields and signs of an encoding -/

theorem Num32.isFinite_iff (x : Num32) : x.isFinite = true ↔ x.isNaN = false ∧ x.isInf = false := by
  by_cases he : x.expField = 255 <;> by_cases hf : x.fracField = 0 <;> simp [isFinite, isNaN, isInf, he, hf]

theorem Num32.fracField_lt (x : Num32) : x.fracField < 2 ^ 23 := BitVec.isLt _

theorem Num32.expField_eq (x : Num32) : x.expField = x.bits.toNat / 2 ^ 23 % 2 ^ 8 := by
  rw [expField, BitVec.extractLsb'_toNat, Nat.shiftRight_eq_div_pow]

theorem Num32.fracField_eq (x : Num32) : x.fracField = x.bits.toNat % 2 ^ 23 := by
  rw [fracField, BitVec.extractLsb'_toNat, Nat.shiftRight_zero]

theorem Num32.isNeg_eq (x : Num32) : x.isNeg = decide (2 ^ 31 ≤ x.bits.toNat) := BitVec.msb_eq_decide _

theorem Num32.pack_false_toNat {m : Nat} (h : m < 2 ^ 32) : (pack false m).bits.toNat = m :=
  Nat.mod_eq_of_lt h

/-- A non-negative encoding below 2^31 read field by field. -/
theorem Num32.pack_false_fields {e f : Nat} (he : e < 2 ^ 8) (hf : f < 2 ^ 23) :
    (pack false (e * 2 ^ 23 + f)).expField = e ∧ (pack false (e * 2 ^ 23 + f)).fracField = f ∧
      (pack false (e * 2 ^ 23 + f)).isNeg = false := by
  rw [expField_eq, fracField_eq, isNeg_eq, pack_false_toNat (by omega), decide_eq_false_iff_not]
  omega

@[simp] theorem Num32.abs_isNeg (x : Num32) : x.abs.isNeg = false := by
  have h : BitVec.msb 0x7FFFFFFF#32 = false := by decide
  simp [Num32.abs, isNeg, BitVec.msb_and, h]

theorem Num32.neg_isNeg (x : Num32) : x.neg.isNeg = !x.isNeg := by
  have h : BitVec.msb 0x80000000#32 = true := by decide
  simp [Num32.neg, isNeg, h]

theorem Num32.neg_expField (x : Num32) : x.neg.expField = x.expField := by
  have h : BitVec.extractLsb' 23 8 0x80000000#32 = 0#8 := by decide
  simp [Num32.neg, expField, BitVec.extractLsb'_xor, h]

theorem Num32.neg_fracField (x : Num32) : x.neg.fracField = x.fracField := by
  have h : BitVec.extractLsb' 0 23 0x80000000#32 = 0#23 := by decide
  simp [Num32.neg, fracField, BitVec.extractLsb'_xor, h]

theorem Num32.neg_isFinite (x : Num32) : x.neg.isFinite = x.isFinite := by simp [isFinite, neg_expField]

theorem Num32.neg_scaled (x : Num32) : x.neg.scaled = -x.scaled := by
  have hmag : x.neg.scaledMag = x.scaledMag := by simp [scaledMag, neg_expField, neg_fracField]
  rw [scaled, scaled, neg_isNeg, hmag]
  cases x.isNeg <;> simp

/-! ## The number line -/

theorem Num32.rank_of_isFinite {x : Num32} (h : x.isFinite = true) : x.rank = x.scaled := by
  simp [rank, ((isFinite_iff x).1 h).2]

theorem Num32.rank_of_isInf {x : Num32} (h : x.isInf = true) : x.rank = 2 ^ 300 ∨ x.rank = -2 ^ 300 := by
  rw [rank, if_pos h]
  cases x.isNeg
  · exact .inl rfl
  · exact .inr rfl

theorem Num32.scaled_of_nonneg {x : Num32} (h : 0 ≤ x.scaled) : x.scaled = x.scaledMag := by
  unfold scaled at h ⊢
  split_ifs at h ⊢ <;> omega

theorem Num32.isFinite_of_rank {x : Num32} (hnan : x.isNaN = false) (hlow : 0 ≤ x.rank) (hhigh : x.rank < 2 ^ 300) :
    x.isFinite = true := by
  refine (isFinite_iff x).2 ⟨hnan, Bool.eq_false_iff.2 fun hinf => ?_⟩
  rcases rank_of_isInf hinf with h | h
  · exact absurd (h ▸ hhigh) (lt_irrefl _)
  · exact absurd (h ▸ hlow) (not_le.2 (neg_neg_of_pos (by positivity)))

theorem Num32.abs_rank_nonneg (x : Num32) : 0 ≤ x.abs.rank := by
  unfold rank scaled
  simp only [abs_isNeg, Bool.false_eq_true, if_false]
  split <;> positivity

theorem Num32.le_iff (x y : Num32) : le x y = true ↔ x.isNaN = false ∧ y.isNaN = false ∧ x.rank ≤ y.rank := by
  simp [le, and_assoc]

theorem Num32.lt_iff (x y : Num32) : lt x y = true ↔ x.isNaN = false ∧ y.isNaN = false ∧ x.rank < y.rank := by
  simp [lt, and_assoc]

/-! ## Rounding -/

/-- A natural number of 24 significant bits. -/
def Significant24 (m : Nat) : Prop := ∃ k e, m = k * 2 ^ e ∧ k ≤ 2 ^ 24

theorem significant24_double {m : Nat} (h : Significant24 m) : Significant24 (2 * m) := by
  obtain ⟨k, e, rfl, hk⟩ := h
  exact ⟨k, e + 1, by ring, hk⟩

theorem Num32.significant24_scaledMag (x : Num32) : Significant24 x.scaledMag := by
  have hfrac := x.fracField_lt
  unfold scaledMag
  split
  · exact ⟨x.fracField, 0, by simp, by omega⟩
  · exact ⟨2 ^ 23 + x.fracField, x.expField - 1, Nat.shiftLeft_eq .., by omega⟩

theorem roundHalfEven_mul_right {c : Nat} (hc : 0 < c) (n d : Nat) :
    roundHalfEven (n * c) (d * c) = roundHalfEven n d := by
  have hlow : 2 * (n % d * c) < d * c ↔ 2 * (n % d) < d := by
    rw [← Nat.mul_assoc, Nat.mul_lt_mul_right hc]
  have hhigh : d * c < 2 * (n % d * c) ↔ d < 2 * (n % d) := by
    rw [← Nat.mul_assoc, Nat.mul_lt_mul_right hc]
  simp only [roundHalfEven, Nat.mul_mod_mul_right, Nat.mul_div_mul_right _ _ hc, hlow, hhigh]

theorem le_roundHalfEven (n d : Nat) : n / d ≤ roundHalfEven n d := by
  unfold roundHalfEven
  split_ifs <;> omega

/-- Rounding to a whole number does not pass a whole number. -/
theorem roundHalfEven_le {n d m : Nat} (hd : 0 < d) (h : n ≤ m * d) : roundHalfEven n d ≤ m := by
  have hdiv : n / d ≤ m := Nat.div_le_of_le_mul (by rwa [Nat.mul_comm])
  obtain hlt | heq := hdiv.lt_or_eq
  · unfold roundHalfEven
    split_ifs <;> omega
  · have hmod : n % d = 0 := by
      have hsplit := Nat.div_add_mod' n d
      rw [heq] at hsplit
      omega
    simp [roundHalfEven, hmod, hd, heq]

/-- The binary exponent of the quantum of `n` over that of the smallest value. -/
def quantumExp (n : Nat) : Nat := Nat.log2 n - 23

/-- `n` in quanta, rounded. -/
def significand (n : Nat) : Nat := roundHalfEven n (2 ^ quantumExp n)

theorem lt_two_pow_quantumExp (n : Nat) : n < 2 ^ 24 * 2 ^ quantumExp n := by
  rw [← pow_add]
  exact Nat.lt_log2_self.trans_le (Nat.pow_le_pow_right (by decide) (by unfold quantumExp; omega))

theorem two_pow_quantumExp_le {n : Nat} (h : quantumExp n ≠ 0) : 2 ^ 23 * 2 ^ quantumExp n ≤ n := by
  have hn : n ≠ 0 := by rintro rfl; exact h rfl
  rw [← pow_add]
  exact (Nat.pow_le_pow_right (by decide) (by unfold quantumExp at *; omega)).trans (Nat.log2_self_le hn)

theorem significand_le (n : Nat) : significand n ≤ 2 ^ 24 :=
  roundHalfEven_le (Nat.two_pow_pos _) (lt_two_pow_quantumExp n).le

theorem le_significand {n : Nat} (h : quantumExp n ≠ 0) : 2 ^ 23 ≤ significand n :=
  ((Nat.le_div_iff_mul_le (Nat.two_pow_pos _)).2 (two_pow_quantumExp_le h)).trans (le_roundHalfEven ..)

/-- Rounding does not pass a value of 24 significant bits: one at or above `n` is a whole number of `n`'s quanta. -/
theorem significand_mul_le {n m : Nat} (hm : Significant24 m) (h : n ≤ m) :
    significand n * 2 ^ quantumExp n ≤ m := by
  obtain ⟨j, hj⟩ : 2 ^ quantumExp n ∣ m := by
    obtain ⟨k, e, rfl, hk⟩ := hm
    by_cases hqe : quantumExp n ≤ e
    · exact (pow_dvd_pow 2 hqe).mul_left k
    · have hpow : 2 ^ (e + 1) ≤ 2 ^ quantumExp n := Nat.pow_le_pow_right (by decide) (by omega)
      have hle : k * 2 ^ e ≤ 2 ^ 23 * 2 ^ quantumExp n :=
        calc k * 2 ^ e ≤ 2 ^ 24 * 2 ^ e := Nat.mul_le_mul_right _ hk
          _ = 2 ^ 23 * 2 ^ (e + 1) := by ring
          _ ≤ 2 ^ 23 * 2 ^ quantumExp n := Nat.mul_le_mul_left _ hpow
      have hge := two_pow_quantumExp_le (n := n) (by omega)
      exact ⟨2 ^ 23, (hle.antisymm (hge.trans h)).trans (Nat.mul_comm ..)⟩
  rw [hj, Nat.mul_comm] at h ⊢
  exact Nat.mul_le_mul_left _ (roundHalfEven_le (Nat.two_pow_pos _) h)

theorem ratioExponent_two_pow {n : Nat} (hn : n ≠ 0) (k : Nat) : ratioExponent n (2 ^ k) = (Nat.log2 n : Int) - k := by
  have hle : 2 ^ k <<< ((Nat.log2 n : Int) - k).toNat ≤ n <<< (-((Nat.log2 n : Int) - k)).toNat := by
    rw [Nat.shiftLeft_eq, Nat.shiftLeft_eq, ← pow_add]
    calc 2 ^ (k + ((Nat.log2 n : Int) - k).toNat)
        = 2 ^ Nat.log2 n * 2 ^ (-((Nat.log2 n : Int) - k)).toNat := by rw [← pow_add]; congr 1; omega
      _ ≤ n * 2 ^ (-((Nat.log2 n : Int) - k)).toNat := Nat.mul_le_mul_right _ (Nat.log2_self_le hn)
  simp only [ratioExponent, Nat.log2_two_pow, if_pos hle]

/-- A multiple of 2^-149 rounded: the encoding is that of the rounded significand and its exponent. -/
theorem Num32.roundRatio_scaled {n : Nat} (hn : n ≠ 0) (neg : Bool) :
    roundRatio neg n (2 ^ 149) =
      if 255 * 2 ^ 23 ≤ significand n + quantumExp n * 2 ^ 23 then infinity neg
      else pack neg (significand n + quantumExp n * 2 ^ 23) := by
  obtain ⟨q, hq⟩ : ∃ q : Int, q = max ((Nat.log2 n : Int) - (149 : Nat) - 23) (-149) := ⟨_, rfl⟩
  have hquantum : (q + 149).toNat = quantumExp n := by unfold quantumExp; omega
  have hshift : 2 ^ 149 <<< q.toNat = 2 ^ quantumExp n * 2 ^ (-q).toNat := by
    rw [Nat.shiftLeft_eq, ← pow_add, ← pow_add]
    congr 1
    omega
  have hsig : roundHalfEven (n <<< (-q).toNat) (2 ^ 149 <<< q.toNat) = significand n := by
    rw [hshift, Nat.shiftLeft_eq, roundHalfEven_mul_right (Nat.two_pow_pos _), significand]
  simp only [roundRatio, if_neg hn, ratioExponent_two_pow hn, ← hq, hsig, hquantum]

theorem Num32.pack_false_scaled {e f : Nat} (he : e ≤ 254) (hf : f < 2 ^ 23) :
    (pack false (e * 2 ^ 23 + f)).isFinite = true ∧
      (pack false (e * 2 ^ 23 + f)).scaled = (if e = 0 then f else (2 ^ 23 + f) * 2 ^ (e - 1) : Nat) := by
  obtain ⟨hexp, hfrac, hneg⟩ := pack_false_fields (e := e) (by omega) hf
  refine ⟨by rw [isFinite, hexp, bne_iff_ne]; omega, ?_⟩
  rw [scaled, scaledMag, hexp, hfrac, hneg, Nat.shiftLeft_eq]
  simp

/-- A significand and its exponent, packed, is the value they stand for: subnormal below 2^23, and at 2^24 with a carry
into the exponent field. -/
theorem Num32.pack_significand {m q : Nat} (hm : m ≤ 2 ^ 24) (hq : q ≤ 252) (hnormal : q ≠ 0 → 2 ^ 23 ≤ m) :
    (pack false (m + q * 2 ^ 23)).isFinite = true ∧ (pack false (m + q * 2 ^ 23)).scaled = (m * 2 ^ q : Nat) := by
  obtain ⟨e, f, he, hf, hmag, hvalue⟩ : ∃ e f, e ≤ 254 ∧ f < 2 ^ 23 ∧ m + q * 2 ^ 23 = e * 2 ^ 23 + f ∧
      (if e = 0 then f else (2 ^ 23 + f) * 2 ^ (e - 1)) = m * 2 ^ q := by
    by_cases hsub : m < 2 ^ 23
    · have hq0 : q = 0 := not_not.1 fun h => absurd (hnormal h) (by omega)
      exact ⟨0, m, by omega, hsub, by omega, by simp [hq0]⟩
    by_cases hcarry : m = 2 ^ 24
    · exact ⟨q + 2, 0, by omega, by omega, by omega, by simp [hcarry]; ring⟩
    · exact ⟨q + 1, m - 2 ^ 23, by omega, by omega, by omega,
        by rw [if_neg (by omega), Nat.add_sub_cancel, Nat.add_sub_cancel' (by omega)]⟩
  rw [hmag, ← hvalue]
  exact pack_false_scaled he hf

/-! ## Bounds on sums -/

/-- A finite value from 0 to `m` units of 2^-149. -/
structure Num32.Between0And (m : Nat) (x : Num32) : Prop where
  isFinite : x.isFinite = true
  nonneg : 0 ≤ x.scaled
  le : x.scaled ≤ m

theorem Num32.signedZero_between (neg : Bool) (m : Nat) : (signedZero neg).Between0And m := by
  have hzero : (signedZero neg).isFinite = true ∧ (signedZero neg).scaled = 0 := by cases neg <;> decide
  exact ⟨hzero.1, hzero.2.ge, by rw [hzero.2]; positivity⟩

/-- The bound 2^276 is half of where rounding reaches infinity. -/
theorem Num32.roundRatio_between {n m : Nat} (hn : n ≠ 0) (hm : Significant24 m) (hle : n ≤ m) (hlt : m < 2 ^ 276) :
    (roundRatio false n (2 ^ 149)).Between0And m := by
  have hlog : Nat.log2 n < 276 := (Nat.log2_lt hn).2 (by omega)
  have hq : quantumExp n ≤ 252 := by unfold quantumExp; omega
  have hsig := significand_le n
  rw [roundRatio_scaled hn, if_neg (by omega)]
  obtain ⟨hfin, hscaled⟩ := pack_significand hsig hq le_significand
  refine ⟨hfin, ?_, ?_⟩ <;> rw [hscaled]
  · positivity
  · exact_mod_cast significand_mul_le hm hle

/-- A finite sum that is exactly at least 0 and at most a value of 24 significant bits stays so when it is rounded. -/
theorem Num32.add_between {x y : Num32} {m : Nat} (hx : x.isFinite = true) (hy : y.isFinite = true)
    (hm : Significant24 m) (hnonneg : 0 ≤ x.scaled + y.scaled) (hle : x.scaled + y.scaled ≤ m) (hlt : m < 2 ^ 276) :
    (add x y).Between0And m := by
  obtain ⟨hxnan, hxinf⟩ := (isFinite_iff x).1 hx
  obtain ⟨hynan, hyinf⟩ := (isFinite_iff y).1 hy
  simp only [add, hxnan, hynan, hxinf, hyinf, Bool.or_self, Bool.false_eq_true, if_false]
  split
  · exact signedZero_between ..
  next hsum =>
    rw [decide_eq_false (by omega)]
    exact roundRatio_between (by omega) hm (by omega) hlt

/-! ## One ADD (R188, R191) -/

/-- A finite value in `[0, limit)`. -/
structure Num32.NonnegBelow (limit x : Num32) : Prop where
  isFinite : x.isFinite = true
  nonneg : 0 ≤ x.scaled
  lt : x.scaled < limit.scaled

theorem Num32.zero_rank : isNaN ⟨0⟩ = false ∧ rank ⟨0⟩ = 0 := by decide

/-- A limit that is at most 2^126 and above some value that is at least 0 is finite. -/
theorem Num32.limit_bounded {limit x : Num32} (hlimit : le limit ⟨0x7E800000#32⟩ = true) (hlow : le ⟨0⟩ x = true)
    (hhigh : lt x limit = true) : limit.isFinite = true ∧ limit.scaled ≤ 2 ^ 275 := by
  have hbound : rank ⟨0x7E800000#32⟩ = 2 ^ 23 * 2 ^ 252 := by decide
  obtain ⟨hnan, -, hle⟩ := (le_iff ..).1 hlimit
  have hpos : 0 ≤ limit.rank := by
    rw [← zero_rank.2]
    exact ((le_iff ..).1 hlow).2.2.trans ((lt_iff ..).1 hhigh).2.2.le
  rw [hbound, ← pow_add] at hle
  have hfin := isFinite_of_rank hnan hpos (hle.trans_lt (pow_lt_pow_right₀ (by decide) (by decide)))
  exact ⟨hfin, rank_of_isFinite hfin ▸ hle⟩

/-- `0 ≤ x < limit` by the comparisons of R9, for a finite limit. -/
theorem Num32.nonnegBelow_iff {limit x : Num32} (hlimit : limit.isFinite = true) (hbound : limit.scaled ≤ 2 ^ 275) :
    limit.NonnegBelow x ↔ le ⟨0⟩ x = true ∧ lt x limit = true := by
  obtain ⟨hlnan, -⟩ := (isFinite_iff limit).1 hlimit
  rw [le_iff, lt_iff, zero_rank.1, zero_rank.2, hlnan, rank_of_isFinite hlimit]
  constructor
  · rintro ⟨hfin, hlow, hhigh⟩
    obtain ⟨hnan, -⟩ := (isFinite_iff x).1 hfin
    rw [rank_of_isFinite hfin]
    exact ⟨⟨rfl, hnan, hlow⟩, hnan, rfl, hhigh⟩
  · rintro ⟨⟨-, hnan, hlow⟩, -, -, hhigh⟩
    have hlarge : limit.scaled < 2 ^ 300 := hbound.trans_lt (pow_lt_pow_right₀ (by decide) (by decide))
    have hfin := isFinite_of_rank hnan hlow (hhigh.trans hlarge)
    rw [rank_of_isFinite hfin] at hlow hhigh
    exact ⟨hfin, hlow, hhigh⟩

/-- A magnitude is not negative. -/
theorem Num32.le_zero_abs {limit x : Num32} (h : lt x.abs limit = true) : le ⟨0⟩ x.abs = true :=
  (le_iff ..).2 ⟨zero_rank.1, ((lt_iff ..).1 h).1, zero_rank.2 ▸ abs_rank_nonneg x⟩

section
variable {limit a x : Num32} {b : Nat}

/-- The rounded sum of two values below a limit is at most twice the larger one, which rounding does not pass. -/
theorem Num32.add_nonnegBelow_between (hbound : limit.scaled ≤ 2 ^ 275) (ha : limit.NonnegBelow a)
    (hx : limit.NonnegBelow x) :
    ∃ b : Nat, Significant24 b ∧ (b : Int) < limit.scaled ∧ (add a x).Between0And (2 * b) := by
  obtain ⟨hafin, halow, hahigh⟩ := ha
  obtain ⟨hxfin, hxlow, hxhigh⟩ := hx
  have hamag := scaled_of_nonneg halow
  have hxmag := scaled_of_nonneg hxlow
  have hsig : Significant24 (max a.scaledMag x.scaledMag) := by
    rcases max_choice a.scaledMag x.scaledMag with h | h <;> rw [h] <;> exact significant24_scaledMag _
  exact ⟨_, hsig, by omega,
    add_between hafin hxfin (significant24_double hsig) (by omega) (by push_cast; omega) (by omega)⟩

/-- One rollover of a sum at most `2 * b`, `b` below the limit, leaves at most `b`, which rounding does not pass. -/
theorem Num32.sub_limit_nonnegBelow (hlimit : limit.isFinite = true) (hbound : limit.scaled ≤ 2 ^ 275)
    (hb : Significant24 b) (hblimit : (b : Int) < limit.scaled) (hx : x.Between0And (2 * b))
    (hle : limit.scaled ≤ x.scaled) : limit.NonnegBelow (sub x limit) := by
  obtain ⟨hxfin, -, hxle⟩ := hx
  push_cast at hxle
  have hneg := neg_scaled limit
  obtain ⟨hfin, hlow, hhigh⟩ :=
    add_between hxfin ((neg_isFinite limit).trans hlimit) hb (by omega) (by omega) (by omega)
  exact ⟨hfin, hlow, hhigh.trans_lt hblimit⟩

/-- An ADD in binary32: of two values in `[0, limit)`, the sum or what one rollover leaves of it lies there. -/
theorem Num32.add_or_rollover_nonnegBelow (hlimit : limit.isFinite = true) (hbound : limit.scaled ≤ 2 ^ 275)
    (ha : limit.NonnegBelow a) (hx : limit.NonnegBelow x) :
    limit.NonnegBelow (if le limit (add a x) then sub (add a x) limit else add a x) := by
  obtain ⟨b, hb, hblimit, hsum⟩ := add_nonnegBelow_between hbound ha hx
  have hiff : le limit (add a x) = true ↔ limit.scaled ≤ (add a x).scaled := by
    rw [le_iff, rank_of_isFinite hlimit, rank_of_isFinite hsum.isFinite]
    simp [((isFinite_iff _).1 hlimit).1, ((isFinite_iff _).1 hsum.isFinite).1]
  split
  next hroll => exact sub_limit_nonnegBelow hlimit hbound hb hblimit hsum (hiff.1 hroll)
  next hbelow => exact ⟨hsum.isFinite, hsum.nonneg, not_le.1 fun hle => hbelow (hiff.2 hle)⟩

end

namespace NumStructure

theorem binary32_addResult (limit a x : NumValue) :
    (binary32.addResult limit a x).toBinary32 =
      if Num32.le limit.toBinary32 (Num32.add a.toBinary32 x.toBinary32.abs) then
        Num32.sub (Num32.add a.toBinary32 x.toBinary32.abs) limit.toBinary32
      else Num32.add a.toBinary32 x.toBinary32.abs := by
  simp only [addResult, binary32_add, binary32_abs, binary32_le, binary32_sub, Num32.toNum_toBinary32]
  split <;> exact Num32.toNum_toBinary32 _

/-- One ADD in binary32, by the comparisons of R9. -/
theorem binary32_addResult_lands {limit a x : NumValue} (hlimit : binary32.le limit ⟨0x7E800000⟩ = true)
    (ha : binary32.le NumValue.zero a = true ∧ binary32.lt a limit = true)
    (hx : binary32.lt (binary32.abs x) limit = true) :
    binary32.le NumValue.zero (binary32.addResult limit a x) = true ∧
      binary32.lt (binary32.addResult limit a x) limit = true := by
  rw [binary32_abs, binary32_lt, Num32.toNum_toBinary32] at hx
  obtain ⟨hfin, hbound⟩ := Num32.limit_bounded hlimit ha.1 ha.2
  have hlands := Num32.add_or_rollover_nonnegBelow hfin hbound ((Num32.nonnegBelow_iff hfin hbound).2 ha)
    ((Num32.nonnegBelow_iff hfin hbound).2 ⟨Num32.le_zero_abs hx, hx⟩)
  rw [← binary32_addResult] at hlands
  exact (Num32.nonnegBelow_iff hfin hbound).1 hlands

end NumStructure

end Sys2Proof
end

section
/-! R191 (a): EV_ADC keeps the accumulators in `[0, meter_constant)`. One EV_ADC gives an accumulator at most one ADD,
whatever the numeric structure; one ADD in binary32 lands in the interval by the bounds on a rounded sum. -/

namespace Sys2Proof.Machine

/-! ## The accumulators of one EV_ADC (R188 to R190) -/

theorem Category.index_injective : Function.Injective Category.index := by
  intro c d h
  revert h
  cases c <;> cases d <;> decide

/-- Each accumulator of `t` is that of `s`, or what one ADD of a published unit of `s` leaves of it; what ADD computes
with is the same in both. -/
structure OneAddEach (s t : State) : Prop where
  num : t.num = s.num
  limit : t.cfg.meterConstant = s.cfg.meterConstant
  acc : ∀ c : Category, t.ledger.accOf c = s.ledger.accOf c ∨
    ∃ x ∈ [s.ledger.unit.act, s.ledger.unit.react, s.ledger.unit.app],
      t.ledger.accOf c = s.num.addResult s.cfg.meterConstant (s.ledger.accOf c) x

theorem oneAddEach_of_ledger_eq {s t : State} (hnum : t.num = s.num) (hcfg : t.cfg = s.cfg)
    (hledger : t.ledger = s.ledger) : OneAddEach s t :=
  ⟨hnum, by rw [hcfg], fun _ => .inl (by rw [hledger])⟩

theorem OneAddEach.of_ledger_eq {s d t : State} (h : OneAddEach d t) (hnum : d.num = s.num) (hcfg : d.cfg = s.cfg)
    (hledger : d.ledger = s.ledger) : OneAddEach s t := by
  obtain ⟨htnum, hlimit, hacc⟩ := h
  rw [hnum] at htnum
  rw [hcfg] at hlimit
  simp only [hnum, hcfg, hledger] at hacc
  exact ⟨htnum, hlimit, hacc⟩

/-- ADD's new accumulator, in one formula (R188). -/
theorem addEnergy_acc (c : Category) (x : NumValue) (s : State) :
    (s.addEnergy c x).ledger.acc =
      s.ledger.acc.set c.index (s.num.addResult s.cfg.meterConstant (s.ledger.accOf c) x) := by
  unfold NumStructure.addResult
  split
  next hroll => rw [addEnergy_rollover c x s hroll]
  next hbelow => rw [addEnergy_below c x s (Bool.not_eq_true _ ▸ hbelow)]

theorem addEnergy_accOf_self (c : Category) (x : NumValue) (s : State) :
    (s.addEnergy c x).ledger.accOf c = s.num.addResult s.cfg.meterConstant (s.ledger.accOf c) x := by
  simp [Ledger.accOf, addEnergy_acc]

theorem addEnergy_accOf_ne {c d : Category} (h : c ≠ d) (x : NumValue) (s : State) :
    (s.addEnergy c x).ledger.accOf d = s.ledger.accOf d := by
  have hindex : (c.index : Nat) ≠ d.index := fun he => h (Category.index_injective (Fin.ext he))
  simp [Ledger.accOf, addEnergy_acc, Vector.getElem_set_ne, hindex]

@[simp] theorem addEnergy_num (c : Category) (x : NumValue) (s : State) : (s.addEnergy c x).num = s.num := by
  obtain ⟨_, _, _, _, h⟩ := addEnergy_frame c x s
  rw [h]

@[simp] theorem addEnergy_cfg (c : Category) (x : NumValue) (s : State) : (s.addEnergy c x).cfg = s.cfg := by
  obtain ⟨_, _, _, _, h⟩ := addEnergy_frame c x s
  rw [h]

/-- The three ADDs of one ENERGY_ROUTE go to three categories. -/
theorem energyRoute_distinct (s : State) :
    ∃ c1 c2 c3 : Category, c1 ≠ c2 ∧ c1 ≠ c3 ∧ c2 ≠ c3 ∧
      s.energyRoute =
        ((s.addEnergy c1 s.ledger.unit.act).addEnergy c2 s.ledger.unit.app).addEnergy c3 s.ledger.unit.react := by
  rcases ha : s.num.le NumValue.zero s.ledger.unit.act <;> rcases hr : s.num.le NumValue.zero s.ledger.unit.react
  · exact ⟨_, _, _, by decide, by decide, by decide, energyRoute_export_negative ha hr⟩
  · exact ⟨_, _, _, by decide, by decide, by decide, energyRoute_export_positive ha hr⟩
  · exact ⟨_, _, _, by decide, by decide, by decide, energyRoute_import_negative ha hr⟩
  · exact ⟨_, _, _, by decide, by decide, by decide, energyRoute_import_positive ha hr⟩

theorem oneAddEach_energyRoute (s : State) : OneAddEach s s.energyRoute := by
  obtain ⟨c1, c2, c3, h12, h13, h23, h⟩ := energyRoute_distinct s
  rw [h]
  refine ⟨by simp, by simp, fun c => ?_⟩
  by_cases h3 : c3 = c
  · subst h3
    refine .inr ⟨s.ledger.unit.react, by simp, ?_⟩
    rw [addEnergy_accOf_self, addEnergy_accOf_ne h23, addEnergy_accOf_ne h13]
    simp
  rw [addEnergy_accOf_ne h3]
  by_cases h2 : c2 = c
  · subst h2
    refine .inr ⟨s.ledger.unit.app, by simp, ?_⟩
    rw [addEnergy_accOf_self, addEnergy_accOf_ne h12]
    simp
  rw [addEnergy_accOf_ne h2]
  by_cases h1 : c1 = c
  · subst h1
    exact .inr ⟨s.ledger.unit.act, by simp, addEnergy_accOf_self ..⟩
  exact .inl (addEnergy_accOf_ne h1 ..)

/-- EV_ADC leaves the ledger to ENERGY_ROUTE, the last thing it does. -/
theorem oneAddEach_evAdc {s t : State} (h : exec .evAdc s = .next t) : OneAddEach s t := by
  simp only [exec, execEvAdc] at h
  split_ifs at h with he hr ha
  · cases h
    exact oneAddEach_of_ledger_eq rfl rfl rfl
  · cases h
    exact oneAddEach_of_ledger_eq rfl rfl rfl
  · cases h
    obtain ⟨_, _, _, hdecay⟩ := ledDecay_frame s.processPhases
    exact (oneAddEach_energyRoute _).of_ledger_eq (by rw [hdecay]; rfl) (by rw [hdecay]; rfl) (by rw [hdecay]; rfl)
  · cases h
    exact oneAddEach_of_ledger_eq rfl rfl rfl

/-! ## The interval `[0, meter_constant)` (R191) -/

/-- With units below `meter_constant`, itself at most 2^126, binary32 has what R191 asks of the structure. -/
theorem addsLand_of_unitsBounded {s : State} (hnum : s.par.num = .binary32)
    (hlimit : s.num.le s.cfg.meterConstant ⟨0x7E800000⟩ = true) (hs : s.LedgerBounded) (hu : s.UnitsBounded) :
    s.AddsLand := by
  have hops : s.num = .binary32 := congrArg NumChoice.ops hnum
  obtain ⟨hact, hreact, happ⟩ := hu
  intro c x hx
  have hsmall : s.num.lt (s.num.abs x) s.cfg.meterConstant = true := by
    simp only [List.mem_cons, List.not_mem_nil, or_false] at hx
    rcases hx with rfl | rfl | rfl
    · exact hact
    · exact hreact
    · exact happ
  have ha := hs c
  rw [hops] at hlimit ha hsmall ⊢
  exact NumStructure.binary32_addResult_lands hlimit ha hsmall

theorem ledgerBounded_of_oneAddEach {s t : State} (hs : s.LedgerBounded) (hadds : s.AddsLand) (h : OneAddEach s t) :
    t.LedgerBounded := by
  intro c
  rw [h.num, h.limit]
  obtain hkept | ⟨x, hx, hadded⟩ := h.acc c
  · rw [hkept]
    exact hs c
  · rw [hadded]
    exact hadds c x hx

/-- Settles O25: one EV_ADC is at most one ADD to each accumulator, and an ADD lands in the interval, in binary32 by its
bounds on a rounded sum, in another structure by the premise. -/
theorem ledgerStaysBelowMeterConstant : Obligations.LedgerStaysBelowMeterConstant :=
  ⟨fun _ _ hnum hlimit hs hu h =>
    ledgerBounded_of_oneAddEach hs (addsLand_of_unitsBounded hnum hlimit hs hu) (oneAddEach_evAdc h),
    fun _ _ hs hadds h => ledgerBounded_of_oneAddEach hs hadds (oneAddEach_evAdc h)⟩

end Sys2Proof.Machine
end

section
/-! The host commands of the API: what a command that fails leaves (R200, R230), the sources (R202 to R204), the
coefficients of a slot (R206), the ledger (R207, R208, R217) and the ready flag (R218). -/

namespace Sys2Proof.Machine

/-! ## Commands that fail (R200, R230) -/

/-- Every host command is a list of checks, an effect and results; `ERR_CAL` is the code of no check. -/
theorem exec_host_eq {i : Instr} (hi : i.opClass = .host) (s : State) :
    ∃ checks after results,
      exec i s = hostCommand checks after results s ∧ ∀ c ∈ checks, c.2 ≠ .errCal := by
  have hslot {k : Nat} (hmem : i ∈ slotCommands k) :
      ∃ checks after results, exec i s = hostCommand checks after results s ∧ ∀ c ∈ checks, c.2 ≠ .errCal := by
    obtain ⟨_, _, h⟩ := exec_slotCommand_eq hmem s
    exact ⟨_, _, _, h, by simp [phaseCheck]⟩
  cases i
  case statusGet k | vrmsGet k | irmsGet k | flineGet k | pGet k | qGet k | sGet k | measGet k | measReady k |
      phaseCalGet k =>
    exact hslot (k := k) (by simp [slotCommands])
  case deinit | start | stop | phaseRegister | consGet =>
    exact ⟨_, _, _, rfl, by simp [busyCheck, initCheck, samplingCheck]⟩
  case energyGet | seqStatus | statGet => exact ⟨[], _, _, rfl, nofun⟩
  case energySet =>
    obtain ⟨rest, _, h, hrest⟩ := exec_energySet_eq s
    refine ⟨_, _, _, h, List.forall_mem_cons.2 ⟨nofun, fun c hc => ?_⟩⟩
    rw [hrest c hc]
    nofun
  case init =>
    simp only [exec, execInit]
    split <;> exact ⟨_, _, _, rfl, by simp [busyCheck, samplingCheck]⟩
  case phaseLoadCal =>
    simp only [exec, execPhaseLoadCal]
    split <;> exact ⟨_, _, _, rfl, by simp [busyCheck, phaseCheck]⟩
  case phaseCalibrate =>
    simp only [exec, execPhaseCalibrate]
    split <;> exact ⟨_, _, _, rfl, by simp [busyCheck, initCheck, phaseCheck]⟩
  case globalCalibrate =>
    simp only [exec, execGlobalCalibrate]
    split <;> exact ⟨_, _, _, rfl, by simp [busyCheck, initCheck]⟩
  all_goals cases hi

/-- Settles O39: a command that passes its checks returns `OK`, and one that does not leaves the code of a check. -/
theorem failedCommandChangesOnlyResultCode : Obligations.FailedCommandChangesOnlyResultCode := by
  intro i s t hi h
  obtain ⟨checks, after, results, hexec, hcodes⟩ := exec_host_eq hi s
  rw [hexec] at h
  obtain ⟨_, hpass⟩ | ⟨rc, hfail, hrefused⟩ := hostCommand_cases checks after results s
  · cases hpass.symm.trans h
    exact ⟨fun hne => absurd rfl hne, nofun⟩
  · cases hrefused.symm.trans h
    obtain ⟨c, hc, rfl⟩ := firstFailure_mem hfail
    exact ⟨fun _ => rfl, hcodes c hc⟩

/-! ## The sources (R202 to R204) -/

theorem stopAll_eq (s : State) :
    s.stopAll =
      { s with
        ctrl := ⟨s.ctrl.init, false, false, false⟩
        trace := s.trace ++ [.adcStop, .tmrStop, .rtcStop] } := by
  simp [State.stopAll, State.stopAdc, State.stopTmr, State.stopRtc, State.emit]

theorem startAll_eq (s : State) :
    s.startAll =
      { s with
        ctrl := ⟨s.ctrl.init, true, true, true⟩
        trace := s.trace ++ [.adcStart, .tmrStart, .rtcStart] } := by
  simp [State.startAll, State.startAdc, State.startTmr, State.startRtc, State.emit]

theorem release_eq (s : State) :
    s.release =
      { s with
        ctrl := ⟨false, false, false, false⟩
        ph := []
        trace := s.trace ++ [.adcStop, .tmrStop, .rtcStop] } := by
  simp only [State.release, stopAll_eq]

/-- Settles O42: no sequence runs, so each command has its effect on the three sources. -/
theorem lifecycleCommandsDriveTheSources : Obligations.LifecycleCommandsDriveTheSources := by
  intro s hb
  have hbusy : firstFailure [busyCheck s] = none := by simp [busyCheck, hb]
  refine ⟨(hostCommand_passes_nil hbusy ..).trans ?deinit, (hostCommand_passes_nil hbusy ..).trans ?stop,
    fun hinit => (hostCommand_passes_nil ?checks ..).trans ?start⟩
  case deinit => rw [release_eq]
  case stop => rw [stopAll_eq]
  case checks => simp [busyCheck, initCheck, hb, hinit]
  case start => rw [startAll_eq, hinit]

/-! ## The coefficients of a slot (R206) -/

theorem readCoef_of_dec {N : NumStructure} {a : Vector Word 16} {vc ic pc corr : NumValue}
    (h0 : N.dec a[0] = some vc) (h1 : N.dec a[1] = some ic) (h2 : N.dec a[2] = some pc) (h3 : N.dec a[3] = some corr)
    (hvc : N.positive vc = true) (hic : N.positive ic = true) (hpc : N.positive pc = true) :
    readCoef N a = some ⟨vc, ic, pc, corr⟩ := by
  have hcorr : numOperand N anyNum a[3] = some corr := numOperand_of_dec h3 rfl
  simp only [readCoef, numOperand_of_dec h0 hvc, numOperand_of_dec h1 hic, numOperand_of_dec h2 hpc, hcorr]

/-- Settles O44: the operands are legal and every check passes, so the slot receives the coefficients. -/
theorem phaseLoadCalLoadsCoefficients : Obligations.PhaseLoadCalLoadsCoefficients := by
  intro k s p vc ic pc corr hb hp h0 h1 h2 h3 hvc hic hpc
  simp only [exec, execPhaseLoadCal, readCoef_of_dec h0 h1 h2 h3 hvc hic hpc]
  rw [hostCommand_passes_nil (by simp [busyCheck, hb, phaseCheck_of_slot hp]), updateSlot_eq_setSlot hp, noteOvf_false]
  rfl

/-! ## The ledger (R207, R208, R217) -/

/-- Eight legal accumulators are read in order. -/
theorem readAccumulators_eq_some {N : NumStructure} {limit : NumValue} {a : Vector Word 16} {acc : Vector NumValue 8}
    (h : ∀ c (hc : c < 8), numOperand N (belowLimit N limit) a[c] = some acc[c]) :
    readAccumulators N limit a = some acc := by
  have hacc : #v[acc[0], acc[1], acc[2], acc[3], acc[4], acc[5], acc[6], acc[7]] = acc := by
    ext c hc
    interval_cases c <;> rfl
  simp only [readAccumulators, h, Nat.reduceLT, hacc]

/-- Eight legal lifetime counters are read in order. -/
theorem readLifetimes_eq_some {lifeW : Nat} {a : Vector Word 16} (h : ∀ c : Fin 8, a[8 + c.val].toNat < 2 ^ lifeW) :
    readLifetimes lifeW a = some (Vector.ofFn fun c : Fin 8 => a[8 + c.val].toNat) := by
  have hread (j : Nat) (h8 : 8 ≤ j) (hj : j < 16) : natOperand 0 (2 ^ lifeW - 1) a[j] = some a[j].toNat := by
    obtain ⟨c, rfl⟩ := Nat.exists_eq_add_of_le h8
    exact natOperand_of_range (Nat.zero_le _) (Nat.le_pred_of_lt (h ⟨c, by omega⟩))
  simp only [readLifetimes, hread, Nat.reduceLeDiff]
  rfl

/-- Settles O45: every operand is legal, so the ledger receives the sixteen of them. -/
theorem energySetRestoresTheLedger : Obligations.EnergySetRestoresTheLedger := by
  intro s acc hinit hops
  simp only [forall_and] at hops
  obtain ⟨hdec, hle, hlt, hlife⟩ := hops
  have hacc : readAccumulators s.num s.cfg.meterConstant s.A = some acc :=
    readAccumulators_eq_some fun c hc =>
      numOperand_of_dec (hdec ⟨c, hc⟩) (Bool.and_eq_true_iff.2 ⟨hle ⟨c, hc⟩, hlt ⟨c, hc⟩⟩)
  refine ⟨Vector.ofFn fun c => s.A[8 + c.val].toNat, fun c => Vector.getElem_ofFn c.isLt, ?_⟩
  simp only [exec, execEnergySet, hacc, readLifetimes_eq_some hlife]
  exact hostCommand_passes_nil (by simp [initCheck, hinit]) ..

/-- A register among the first ones, as many as there are results, receives the result of its number. -/
theorem writeFrom_zero_of_lt {l : List Word} {r : Vector Word 16} {j : Nat} (hj : j < 16) (h : j < l.length) :
    (writeFrom 0 l r)[j] = l[j] := by
  rw [writeFrom_getElem, dif_pos (by omega)]
  rfl

/-- A register after them stays. -/
theorem writeFrom_zero_of_le {l : List Word} {r : Vector Word 16} {j : Nat} (hj : j < 16) (h : l.length ≤ j) :
    (writeFrom 0 l r)[j] = r[j] := by
  rw [writeFrom_getElem, dif_neg (by omega)]

/-- Settles O46: ENERGY_GET writes all sixteen response registers, CONS_GET the first eight. -/
theorem energyGetAndConsGetReadTheLedger : Obligations.EnergyGetAndConsGetReadTheLedger := by
  refine fun s => ⟨⟨_, fun c => ⟨?acc, ?life⟩, hostCommand_passes firstFailure_nil s _ s⟩,
    fun hinit => ⟨_, fun c => ⟨?total, ?kept⟩, hostCommand_passes (by simp [initCheck, hinit]) s _ s⟩⟩
  case acc =>
    rw [writeFrom_zero_of_lt _ (by simp [Ledger.words]; omega)]
    simp [Ledger.words]
  case life =>
    rw [writeFrom_zero_of_lt _ (by simp [Ledger.words]; omega)]
    simp [Ledger.words, natWord]
  case total =>
    rw [writeFrom_zero_of_lt _ (by simp)]
    simp [consumption]
  case kept => exact writeFrom_zero_of_le _ (by simp)

/-! ## The ready flag (R218) -/

theorem exec_measReady {s : State} {k : Nat} {p : Slot} (hp : s.ph[k]? = some p) :
    exec (.measReady k) s =
      .next { s with
        rc := .ok
        R := s.R.set 0 (boolWord p.sig.measReady)
        ph := s.ph.set k { p with sig := { p.sig with measReady := false } } } := by
  simp only [exec, execMeasReady, hp]
  rw [hostCommand_passes firstFailure_nil, respond_one]
  rfl

/-- MEAS_READY of a flag that is clear, after a command that returned `OK`. -/
theorem exec_measReady_clear {s : State} {k : Nat} {p : Slot} (hp : s.ph[k]? = some p)
    (hclear : p.sig.measReady = false) (hrc : s.rc = .ok) :
    exec (.measReady k) s = .next { s with R := s.R.set 0 0#32 } := by
  have hsame : ({ p with sig := { p.sig with measReady := false } } : Slot) = p := by rw [← hclear]
  obtain ⟨_, hget⟩ := List.getElem?_eq_some_iff.1 hp
  rw [exec_measReady hp, hsame, hclear, ← hrc, ← hget, List.set_getElem_self]
  rfl

/-- Settles O49: the first command leaves the slot with the flag clear, and `OK` in `RC`. -/
theorem measReadyTestsAndClears : Obligations.MeasReadyTestsAndClears := by
  refine fun k s p hp => ⟨exec_measReady hp, fun t h => ?_⟩
  cases (exec_measReady hp).symm.trans h
  exact exec_measReady_clear (List.getElem?_set_self (lt_of_slot hp)) rfl rfl

end Sys2Proof.Machine
end
